-- ==== Sys2Proof/Word.lean ====
section
/-! DEFINITION. The two widths of the block (R6): 8-bit data and 16-bit addresses. -/

namespace Sys2Proof

/-- One byte: a memory cell, a data register, an operand byte (R6, R40). -/
abbrev Byte := BitVec 8

/-- A 16-bit value: an address or the program counter (R6). Its `+` wraps modulo 65536 (R8). -/
abbrev Word := BitVec 16

end Sys2Proof
end

