-- ==== Sys2Proof/Syntax.lean ====
section
/-! DEFINITION. The instruction set as syntax: one constructor for each documented row of spec/opcode_table.json (151), and
`invalid` for the 105 rows that are all the one entry `(Invalid, Implicit)` (R62, R64). A constructor carries its operand
bytes: nothing for the Implicit and Accumulator rows (format F1 of R60), one byte for F2, one little-endian word for F3.
So a mode an instruction does not have (an immediate store, say) cannot be written down at all. -/

namespace Sys2Proof

/-- The ten addressing modes that have an effective address read from operand bytes (R84 to R92), with those bytes. With
Implicit, Accumulator and Immediate (see `Form`) they are the closed enumeration of thirteen of R93. -/
inductive MemMode where
  /-- Zero Page (R84). -/
  | zp (b : Byte)
  /-- Zero Page,X (R85). -/
  | zpX (b : Byte)
  /-- Zero Page,Y (R86). -/
  | zpY (b : Byte)
  /-- Relative: a signed offset from the next instruction (R87). -/
  | rel (off : Byte)
  /-- Absolute (R88). -/
  | abs (w : Word)
  /-- Absolute,X (R89). -/
  | absX (w : Word)
  /-- Absolute,Y (R89). -/
  | absY (w : Word)
  /-- Indirect, JMP only (R90). -/
  | ind (w : Word)
  /-- (Indirect,X) (R91). -/
  | indX (b : Byte)
  /-- (Indirect),Y (R92). -/
  | indY (b : Byte)
deriving DecidableEq, Repr

/-- The thirteen addressing modes of R93, each with its operand bytes. -/
inductive Form where
  /-- Implicit (R81). -/
  | implied
  /-- Accumulator (R82). -/
  | acc
  /-- Immediate (R83). -/
  | imm (v : Byte)
  /-- One of the ten modes with an address. -/
  | mem (m : MemMode)
deriving DecidableEq, Repr

/-- The operand of an instruction that only reads it: an immediate byte or a memory cell (R104). -/
inductive Source where
  | imm (v : Byte)
  | mem (m : MemMode)
deriving DecidableEq, Repr

/-- The operand of a shift or rotate: the accumulator or a memory cell (R104, R105). -/
inductive Target where
  | acc
  | mem (m : MemMode)
deriving DecidableEq, Repr

/-- A read operand as one of the thirteen modes. -/
def Source.form : Source → Form
  | .imm v => .imm v
  | .mem m => .mem m

/-- A shift operand as one of the thirteen modes. -/
def Target.form : Target → Form
  | .acc => .acc
  | .mem m => .mem m

/-- The 56 operation kinds and Invalid (R111). -/
inductive Kind where
  | adc | sbc | cmp | cpx | cpy
  | asl | lsr | rol | ror
  | inc | dec | inx | iny | dex | dey
  | and | ora | eor | bit | lda | ldx | ldy | sta | stx | sty
  | bcc | bcs | beq | bne | bmi | bpl | bvc | bvs | jmp | jsr | rts
  | pha | php | pla | plp | tax | tay | txa | tya | tsx | txs
  | brk | rti | clc | sec | cli | sei | clv | cld | sed | nop
  | invalid
deriving DecidableEq, Repr

/-- The instructions. Each docstring gives the row's assembler form (R68), its opcode byte and its rule. -/
inductive Instr where
  /-- `ADC #v`, opcode 69 (R120, R83). -/
  | adcImm (v : Byte)
  /-- `ADC b`, opcode 65 (R120, R84). -/
  | adcZp (b : Byte)
  /-- `ADC b,X`, opcode 75 (R120, R85). -/
  | adcZpX (b : Byte)
  /-- `ADC w`, opcode 6D (R120, R88). -/
  | adcAbs (w : Word)
  /-- `ADC w,X`, opcode 7D (R120, R89). -/
  | adcAbsX (w : Word)
  /-- `ADC w,Y`, opcode 79 (R120, R89). -/
  | adcAbsY (w : Word)
  /-- `ADC (b,X)`, opcode 61 (R120, R91). -/
  | adcIndX (b : Byte)
  /-- `ADC (b),Y`, opcode 71 (R120, R92). -/
  | adcIndY (b : Byte)
  /-- `SBC #v`, opcode E9 (R121, R83). -/
  | sbcImm (v : Byte)
  /-- `SBC b`, opcode E5 (R121, R84). -/
  | sbcZp (b : Byte)
  /-- `SBC b,X`, opcode F5 (R121, R85). -/
  | sbcZpX (b : Byte)
  /-- `SBC w`, opcode ED (R121, R88). -/
  | sbcAbs (w : Word)
  /-- `SBC w,X`, opcode FD (R121, R89). -/
  | sbcAbsX (w : Word)
  /-- `SBC w,Y`, opcode F9 (R121, R89). -/
  | sbcAbsY (w : Word)
  /-- `SBC (b,X)`, opcode E1 (R121, R91). -/
  | sbcIndX (b : Byte)
  /-- `SBC (b),Y`, opcode F1 (R121, R92). -/
  | sbcIndY (b : Byte)
  /-- `CMP #v`, opcode C9 (R122, R83). -/
  | cmpImm (v : Byte)
  /-- `CMP b`, opcode C5 (R122, R84). -/
  | cmpZp (b : Byte)
  /-- `CMP b,X`, opcode D5 (R122, R85). -/
  | cmpZpX (b : Byte)
  /-- `CMP w`, opcode CD (R122, R88). -/
  | cmpAbs (w : Word)
  /-- `CMP w,X`, opcode DD (R122, R89). -/
  | cmpAbsX (w : Word)
  /-- `CMP w,Y`, opcode D9 (R122, R89). -/
  | cmpAbsY (w : Word)
  /-- `CMP (b,X)`, opcode C1 (R122, R91). -/
  | cmpIndX (b : Byte)
  /-- `CMP (b),Y`, opcode D1 (R122, R92). -/
  | cmpIndY (b : Byte)
  /-- `CPX #v`, opcode E0 (R123, R83). -/
  | cpxImm (v : Byte)
  /-- `CPX b`, opcode E4 (R123, R84). -/
  | cpxZp (b : Byte)
  /-- `CPX w`, opcode EC (R123, R88). -/
  | cpxAbs (w : Word)
  /-- `CPY #v`, opcode C0 (R124, R83). -/
  | cpyImm (v : Byte)
  /-- `CPY b`, opcode C4 (R124, R84). -/
  | cpyZp (b : Byte)
  /-- `CPY w`, opcode CC (R124, R88). -/
  | cpyAbs (w : Word)
  /-- `ASL A`, opcode 0A (R130, R82). -/
  | aslA
  /-- `ASL b`, opcode 06 (R130, R84). -/
  | aslZp (b : Byte)
  /-- `ASL b,X`, opcode 16 (R130, R85). -/
  | aslZpX (b : Byte)
  /-- `ASL w`, opcode 0E (R130, R88). -/
  | aslAbs (w : Word)
  /-- `ASL w,X`, opcode 1E (R130, R89). -/
  | aslAbsX (w : Word)
  /-- `LSR A`, opcode 4A (R131, R82). -/
  | lsrA
  /-- `LSR b`, opcode 46 (R131, R84). -/
  | lsrZp (b : Byte)
  /-- `LSR b,X`, opcode 56 (R131, R85). -/
  | lsrZpX (b : Byte)
  /-- `LSR w`, opcode 4E (R131, R88). -/
  | lsrAbs (w : Word)
  /-- `LSR w,X`, opcode 5E (R131, R89). -/
  | lsrAbsX (w : Word)
  /-- `ROL A`, opcode 2A (R132, R82). -/
  | rolA
  /-- `ROL b`, opcode 26 (R132, R84). -/
  | rolZp (b : Byte)
  /-- `ROL b,X`, opcode 36 (R132, R85). -/
  | rolZpX (b : Byte)
  /-- `ROL w`, opcode 2E (R132, R88). -/
  | rolAbs (w : Word)
  /-- `ROL w,X`, opcode 3E (R132, R89). -/
  | rolAbsX (w : Word)
  /-- `ROR A`, opcode 6A (R133, R82). -/
  | rorA
  /-- `ROR b`, opcode 66 (R133, R84). -/
  | rorZp (b : Byte)
  /-- `ROR b,X`, opcode 76 (R133, R85). -/
  | rorZpX (b : Byte)
  /-- `ROR w`, opcode 6E (R133, R88). -/
  | rorAbs (w : Word)
  /-- `ROR w,X`, opcode 7E (R133, R89). -/
  | rorAbsX (w : Word)
  /-- `INC b`, opcode E6 (R140, R84). -/
  | incZp (b : Byte)
  /-- `INC b,X`, opcode F6 (R140, R85). -/
  | incZpX (b : Byte)
  /-- `INC w`, opcode EE (R140, R88). -/
  | incAbs (w : Word)
  /-- `INC w,X`, opcode FE (R140, R89). -/
  | incAbsX (w : Word)
  /-- `DEC b`, opcode C6 (R141, R84). -/
  | decZp (b : Byte)
  /-- `DEC b,X`, opcode D6 (R141, R85). -/
  | decZpX (b : Byte)
  /-- `DEC w`, opcode CE (R141, R88). -/
  | decAbs (w : Word)
  /-- `DEC w,X`, opcode DE (R141, R89). -/
  | decAbsX (w : Word)
  /-- `INX`, opcode E8 (R142, R81). -/
  | inx
  /-- `INY`, opcode C8 (R143, R81). -/
  | iny
  /-- `DEX`, opcode CA (R144, R81). -/
  | dex
  /-- `DEY`, opcode 88 (R145, R81). -/
  | dey
  /-- `AND #v`, opcode 29 (R150, R83). -/
  | andImm (v : Byte)
  /-- `AND b`, opcode 25 (R150, R84). -/
  | andZp (b : Byte)
  /-- `AND b,X`, opcode 35 (R150, R85). -/
  | andZpX (b : Byte)
  /-- `AND w`, opcode 2D (R150, R88). -/
  | andAbs (w : Word)
  /-- `AND w,X`, opcode 3D (R150, R89). -/
  | andAbsX (w : Word)
  /-- `AND w,Y`, opcode 39 (R150, R89). -/
  | andAbsY (w : Word)
  /-- `AND (b,X)`, opcode 21 (R150, R91). -/
  | andIndX (b : Byte)
  /-- `AND (b),Y`, opcode 31 (R150, R92). -/
  | andIndY (b : Byte)
  /-- `ORA #v`, opcode 09 (R151, R83). -/
  | oraImm (v : Byte)
  /-- `ORA b`, opcode 05 (R151, R84). -/
  | oraZp (b : Byte)
  /-- `ORA b,X`, opcode 15 (R151, R85). -/
  | oraZpX (b : Byte)
  /-- `ORA w`, opcode 0D (R151, R88). -/
  | oraAbs (w : Word)
  /-- `ORA w,X`, opcode 1D (R151, R89). -/
  | oraAbsX (w : Word)
  /-- `ORA w,Y`, opcode 19 (R151, R89). -/
  | oraAbsY (w : Word)
  /-- `ORA (b,X)`, opcode 01 (R151, R91). -/
  | oraIndX (b : Byte)
  /-- `ORA (b),Y`, opcode 11 (R151, R92). -/
  | oraIndY (b : Byte)
  /-- `EOR #v`, opcode 49 (R152, R83). -/
  | eorImm (v : Byte)
  /-- `EOR b`, opcode 45 (R152, R84). -/
  | eorZp (b : Byte)
  /-- `EOR b,X`, opcode 55 (R152, R85). -/
  | eorZpX (b : Byte)
  /-- `EOR w`, opcode 4D (R152, R88). -/
  | eorAbs (w : Word)
  /-- `EOR w,X`, opcode 5D (R152, R89). -/
  | eorAbsX (w : Word)
  /-- `EOR w,Y`, opcode 59 (R152, R89). -/
  | eorAbsY (w : Word)
  /-- `EOR (b,X)`, opcode 41 (R152, R91). -/
  | eorIndX (b : Byte)
  /-- `EOR (b),Y`, opcode 51 (R152, R92). -/
  | eorIndY (b : Byte)
  /-- `BIT b`, opcode 24 (R153, R84). -/
  | bitZp (b : Byte)
  /-- `BIT w`, opcode 2C (R153, R88). -/
  | bitAbs (w : Word)
  /-- `LDA #v`, opcode A9 (R154, R83). -/
  | ldaImm (v : Byte)
  /-- `LDA b`, opcode A5 (R154, R84). -/
  | ldaZp (b : Byte)
  /-- `LDA b,X`, opcode B5 (R154, R85). -/
  | ldaZpX (b : Byte)
  /-- `LDA w`, opcode AD (R154, R88). -/
  | ldaAbs (w : Word)
  /-- `LDA w,X`, opcode BD (R154, R89). -/
  | ldaAbsX (w : Word)
  /-- `LDA w,Y`, opcode B9 (R154, R89). -/
  | ldaAbsY (w : Word)
  /-- `LDA (b,X)`, opcode A1 (R154, R91). -/
  | ldaIndX (b : Byte)
  /-- `LDA (b),Y`, opcode B1 (R154, R92). -/
  | ldaIndY (b : Byte)
  /-- `LDX #v`, opcode A2 (R155, R83). -/
  | ldxImm (v : Byte)
  /-- `LDX b`, opcode A6 (R155, R84). -/
  | ldxZp (b : Byte)
  /-- `LDX b,Y`, opcode B6 (R155, R86). -/
  | ldxZpY (b : Byte)
  /-- `LDX w`, opcode AE (R155, R88). -/
  | ldxAbs (w : Word)
  /-- `LDX w,Y`, opcode BE (R155, R89). -/
  | ldxAbsY (w : Word)
  /-- `LDY #v`, opcode A0 (R156, R83). -/
  | ldyImm (v : Byte)
  /-- `LDY b`, opcode A4 (R156, R84). -/
  | ldyZp (b : Byte)
  /-- `LDY b,X`, opcode B4 (R156, R85). -/
  | ldyZpX (b : Byte)
  /-- `LDY w`, opcode AC (R156, R88). -/
  | ldyAbs (w : Word)
  /-- `LDY w,X`, opcode BC (R156, R89). -/
  | ldyAbsX (w : Word)
  /-- `STA b`, opcode 85 (R157, R84). -/
  | staZp (b : Byte)
  /-- `STA b,X`, opcode 95 (R157, R85). -/
  | staZpX (b : Byte)
  /-- `STA w`, opcode 8D (R157, R88). -/
  | staAbs (w : Word)
  /-- `STA w,X`, opcode 9D (R157, R89). -/
  | staAbsX (w : Word)
  /-- `STA w,Y`, opcode 99 (R157, R89). -/
  | staAbsY (w : Word)
  /-- `STA (b,X)`, opcode 81 (R157, R91). -/
  | staIndX (b : Byte)
  /-- `STA (b),Y`, opcode 91 (R157, R92). -/
  | staIndY (b : Byte)
  /-- `STX b`, opcode 86 (R158, R84). -/
  | stxZp (b : Byte)
  /-- `STX b,Y`, opcode 96 (R158, R86). -/
  | stxZpY (b : Byte)
  /-- `STX w`, opcode 8E (R158, R88). -/
  | stxAbs (w : Word)
  /-- `STY b`, opcode 84 (R159, R84). -/
  | styZp (b : Byte)
  /-- `STY b,X`, opcode 94 (R159, R85). -/
  | styZpX (b : Byte)
  /-- `STY w`, opcode 8C (R159, R88). -/
  | styAbs (w : Word)
  /-- `BCC off`, opcode 90 (R171, R87). -/
  | bcc (off : Byte)
  /-- `BCS off`, opcode B0 (R172, R87). -/
  | bcs (off : Byte)
  /-- `BEQ off`, opcode F0 (R173, R87). -/
  | beq (off : Byte)
  /-- `BNE off`, opcode D0 (R174, R87). -/
  | bne (off : Byte)
  /-- `BMI off`, opcode 30 (R175, R87). -/
  | bmi (off : Byte)
  /-- `BPL off`, opcode 10 (R176, R87). -/
  | bpl (off : Byte)
  /-- `BVC off`, opcode 50 (R177, R87). -/
  | bvc (off : Byte)
  /-- `BVS off`, opcode 70 (R178, R87). -/
  | bvs (off : Byte)
  /-- `JMP w`, opcode 4C (R179, R88). -/
  | jmpAbs (w : Word)
  /-- `JMP (w)`, opcode 6C (R179, R90). -/
  | jmpInd (w : Word)
  /-- `JSR w`, opcode 20 (R180, R88). -/
  | jsr (w : Word)
  /-- `RTS`, opcode 60 (R181, R81). -/
  | rts
  /-- `PHA`, opcode 48 (R190, R81). -/
  | pha
  /-- `PHP`, opcode 08 (R191, R81). -/
  | php
  /-- `PLA`, opcode 68 (R192, R81). -/
  | pla
  /-- `PLP`, opcode 28 (R193, R81). -/
  | plp
  /-- `TAX`, opcode AA (R194, R81). -/
  | tax
  /-- `TAY`, opcode A8 (R195, R81). -/
  | tay
  /-- `TXA`, opcode 8A (R196, R81). -/
  | txa
  /-- `TYA`, opcode 98 (R197, R81). -/
  | tya
  /-- `TSX`, opcode BA (R198, R81). -/
  | tsx
  /-- `TXS`, opcode 9A (R199, R81). -/
  | txs
  /-- `BRK`, opcode 00 (R210, R81). -/
  | brk
  /-- `RTI`, opcode 40 (R211, R81). -/
  | rti
  /-- `CLC`, opcode 18 (R212, R81). -/
  | clc
  /-- `SEC`, opcode 38 (R213, R81). -/
  | sec
  /-- `CLI`, opcode 58 (R214, R81). -/
  | cli
  /-- `SEI`, opcode 78 (R215, R81). -/
  | sei
  /-- `CLV`, opcode B8 (R216, R81). -/
  | clv
  /-- `CLD`, opcode D8 (R217, R81). -/
  | cld
  /-- `SED`, opcode F8 (R218, R81). -/
  | sed
  /-- `NOP`, opcode EA (R219, R81). -/
  | nop
  /-- One of the 105 opcode bytes with no documented instruction (R64, R239). -/
  | invalid (op : Byte)
deriving DecidableEq, Repr

/-- What R62 calls the entry's operation kind and mode: the kind of an instruction, and its mode with the operand bytes. -/
def Instr.view : Instr → Kind × Form
  | .adcImm v => (.adc, .imm v)
  | .adcZp b => (.adc, .mem (.zp b))
  | .adcZpX b => (.adc, .mem (.zpX b))
  | .adcAbs w => (.adc, .mem (.abs w))
  | .adcAbsX w => (.adc, .mem (.absX w))
  | .adcAbsY w => (.adc, .mem (.absY w))
  | .adcIndX b => (.adc, .mem (.indX b))
  | .adcIndY b => (.adc, .mem (.indY b))
  | .sbcImm v => (.sbc, .imm v)
  | .sbcZp b => (.sbc, .mem (.zp b))
  | .sbcZpX b => (.sbc, .mem (.zpX b))
  | .sbcAbs w => (.sbc, .mem (.abs w))
  | .sbcAbsX w => (.sbc, .mem (.absX w))
  | .sbcAbsY w => (.sbc, .mem (.absY w))
  | .sbcIndX b => (.sbc, .mem (.indX b))
  | .sbcIndY b => (.sbc, .mem (.indY b))
  | .cmpImm v => (.cmp, .imm v)
  | .cmpZp b => (.cmp, .mem (.zp b))
  | .cmpZpX b => (.cmp, .mem (.zpX b))
  | .cmpAbs w => (.cmp, .mem (.abs w))
  | .cmpAbsX w => (.cmp, .mem (.absX w))
  | .cmpAbsY w => (.cmp, .mem (.absY w))
  | .cmpIndX b => (.cmp, .mem (.indX b))
  | .cmpIndY b => (.cmp, .mem (.indY b))
  | .cpxImm v => (.cpx, .imm v)
  | .cpxZp b => (.cpx, .mem (.zp b))
  | .cpxAbs w => (.cpx, .mem (.abs w))
  | .cpyImm v => (.cpy, .imm v)
  | .cpyZp b => (.cpy, .mem (.zp b))
  | .cpyAbs w => (.cpy, .mem (.abs w))
  | .aslA => (.asl, .acc)
  | .aslZp b => (.asl, .mem (.zp b))
  | .aslZpX b => (.asl, .mem (.zpX b))
  | .aslAbs w => (.asl, .mem (.abs w))
  | .aslAbsX w => (.asl, .mem (.absX w))
  | .lsrA => (.lsr, .acc)
  | .lsrZp b => (.lsr, .mem (.zp b))
  | .lsrZpX b => (.lsr, .mem (.zpX b))
  | .lsrAbs w => (.lsr, .mem (.abs w))
  | .lsrAbsX w => (.lsr, .mem (.absX w))
  | .rolA => (.rol, .acc)
  | .rolZp b => (.rol, .mem (.zp b))
  | .rolZpX b => (.rol, .mem (.zpX b))
  | .rolAbs w => (.rol, .mem (.abs w))
  | .rolAbsX w => (.rol, .mem (.absX w))
  | .rorA => (.ror, .acc)
  | .rorZp b => (.ror, .mem (.zp b))
  | .rorZpX b => (.ror, .mem (.zpX b))
  | .rorAbs w => (.ror, .mem (.abs w))
  | .rorAbsX w => (.ror, .mem (.absX w))
  | .incZp b => (.inc, .mem (.zp b))
  | .incZpX b => (.inc, .mem (.zpX b))
  | .incAbs w => (.inc, .mem (.abs w))
  | .incAbsX w => (.inc, .mem (.absX w))
  | .decZp b => (.dec, .mem (.zp b))
  | .decZpX b => (.dec, .mem (.zpX b))
  | .decAbs w => (.dec, .mem (.abs w))
  | .decAbsX w => (.dec, .mem (.absX w))
  | .inx => (.inx, .implied)
  | .iny => (.iny, .implied)
  | .dex => (.dex, .implied)
  | .dey => (.dey, .implied)
  | .andImm v => (.and, .imm v)
  | .andZp b => (.and, .mem (.zp b))
  | .andZpX b => (.and, .mem (.zpX b))
  | .andAbs w => (.and, .mem (.abs w))
  | .andAbsX w => (.and, .mem (.absX w))
  | .andAbsY w => (.and, .mem (.absY w))
  | .andIndX b => (.and, .mem (.indX b))
  | .andIndY b => (.and, .mem (.indY b))
  | .oraImm v => (.ora, .imm v)
  | .oraZp b => (.ora, .mem (.zp b))
  | .oraZpX b => (.ora, .mem (.zpX b))
  | .oraAbs w => (.ora, .mem (.abs w))
  | .oraAbsX w => (.ora, .mem (.absX w))
  | .oraAbsY w => (.ora, .mem (.absY w))
  | .oraIndX b => (.ora, .mem (.indX b))
  | .oraIndY b => (.ora, .mem (.indY b))
  | .eorImm v => (.eor, .imm v)
  | .eorZp b => (.eor, .mem (.zp b))
  | .eorZpX b => (.eor, .mem (.zpX b))
  | .eorAbs w => (.eor, .mem (.abs w))
  | .eorAbsX w => (.eor, .mem (.absX w))
  | .eorAbsY w => (.eor, .mem (.absY w))
  | .eorIndX b => (.eor, .mem (.indX b))
  | .eorIndY b => (.eor, .mem (.indY b))
  | .bitZp b => (.bit, .mem (.zp b))
  | .bitAbs w => (.bit, .mem (.abs w))
  | .ldaImm v => (.lda, .imm v)
  | .ldaZp b => (.lda, .mem (.zp b))
  | .ldaZpX b => (.lda, .mem (.zpX b))
  | .ldaAbs w => (.lda, .mem (.abs w))
  | .ldaAbsX w => (.lda, .mem (.absX w))
  | .ldaAbsY w => (.lda, .mem (.absY w))
  | .ldaIndX b => (.lda, .mem (.indX b))
  | .ldaIndY b => (.lda, .mem (.indY b))
  | .ldxImm v => (.ldx, .imm v)
  | .ldxZp b => (.ldx, .mem (.zp b))
  | .ldxZpY b => (.ldx, .mem (.zpY b))
  | .ldxAbs w => (.ldx, .mem (.abs w))
  | .ldxAbsY w => (.ldx, .mem (.absY w))
  | .ldyImm v => (.ldy, .imm v)
  | .ldyZp b => (.ldy, .mem (.zp b))
  | .ldyZpX b => (.ldy, .mem (.zpX b))
  | .ldyAbs w => (.ldy, .mem (.abs w))
  | .ldyAbsX w => (.ldy, .mem (.absX w))
  | .staZp b => (.sta, .mem (.zp b))
  | .staZpX b => (.sta, .mem (.zpX b))
  | .staAbs w => (.sta, .mem (.abs w))
  | .staAbsX w => (.sta, .mem (.absX w))
  | .staAbsY w => (.sta, .mem (.absY w))
  | .staIndX b => (.sta, .mem (.indX b))
  | .staIndY b => (.sta, .mem (.indY b))
  | .stxZp b => (.stx, .mem (.zp b))
  | .stxZpY b => (.stx, .mem (.zpY b))
  | .stxAbs w => (.stx, .mem (.abs w))
  | .styZp b => (.sty, .mem (.zp b))
  | .styZpX b => (.sty, .mem (.zpX b))
  | .styAbs w => (.sty, .mem (.abs w))
  | .bcc off => (.bcc, .mem (.rel off))
  | .bcs off => (.bcs, .mem (.rel off))
  | .beq off => (.beq, .mem (.rel off))
  | .bne off => (.bne, .mem (.rel off))
  | .bmi off => (.bmi, .mem (.rel off))
  | .bpl off => (.bpl, .mem (.rel off))
  | .bvc off => (.bvc, .mem (.rel off))
  | .bvs off => (.bvs, .mem (.rel off))
  | .jmpAbs w => (.jmp, .mem (.abs w))
  | .jmpInd w => (.jmp, .mem (.ind w))
  | .jsr w => (.jsr, .mem (.abs w))
  | .rts => (.rts, .implied)
  | .pha => (.pha, .implied)
  | .php => (.php, .implied)
  | .pla => (.pla, .implied)
  | .plp => (.plp, .implied)
  | .tax => (.tax, .implied)
  | .tay => (.tay, .implied)
  | .txa => (.txa, .implied)
  | .tya => (.tya, .implied)
  | .tsx => (.tsx, .implied)
  | .txs => (.txs, .implied)
  | .brk => (.brk, .implied)
  | .rti => (.rti, .implied)
  | .clc => (.clc, .implied)
  | .sec => (.sec, .implied)
  | .cli => (.cli, .implied)
  | .sei => (.sei, .implied)
  | .clv => (.clv, .implied)
  | .cld => (.cld, .implied)
  | .sed => (.sed, .implied)
  | .nop => (.nop, .implied)
  | .invalid _ => (.invalid, .implied)

/-- The operation kind of an instruction (R62, R111). -/
def Instr.kind (i : Instr) : Kind := i.view.1

/-- The addressing mode of an instruction, with its operand bytes (R62, R93). -/
def Instr.form (i : Instr) : Form := i.view.2

end Sys2Proof
end

