-- ==== Sys2Proof/Decode.lean ====
section
/-! DEFINITION. The decoder of 30_encoding.md, and the encoder. `lookup` is the 256-entry table of R62 and R63 (written from
spec/opcode_table.json), `decode` reads one instruction from a list of bytes, `encode` writes its bytes back. -/

namespace Sys2Proof

/-- `lo` and `hi` put together as the 16-bit value hi:lo (R45, R46). -/
def wordOf (lo hi : Byte) : Word := hi.setWidth 16 <<< 8 ||| lo.setWidth 16

/-- Bits 7..0 of a 16-bit value. -/
def loByte (w : Word) : Byte := w.extractLsb' 0 8

/-- Bits 15..8 of a 16-bit value. -/
def hiByte (w : Word) : Byte := w.extractLsb' 8 8

/-- An entry of the decoder table, by the format of R60: F1 is the opcode alone, F2 takes one operand byte, F3 takes a word
stored low byte first. -/
inductive Entry where
  | f1 (i : Instr)
  | f2 (build : Byte → Instr)
  | f3 (build : Word → Instr)

/-- `LEN`, the number of operand bytes of an entry (R60, R66). -/
def Entry.operandBytes : Entry → Nat
  | .f1 _ => 0
  | .f2 _ => 1
  | .f3 _ => 2

/-- Opcodes 00 to 0F (R63, R64). -/
def opcodeRow0 : List Entry := [
  .f1 .brk, .f2 .oraIndX, .f1 (.invalid 0x02), .f1 (.invalid 0x03),
  .f1 (.invalid 0x04), .f2 .oraZp, .f2 .aslZp, .f1 (.invalid 0x07),
  .f1 .php, .f2 .oraImm, .f1 .aslA, .f1 (.invalid 0x0B),
  .f1 (.invalid 0x0C), .f3 .oraAbs, .f3 .aslAbs, .f1 (.invalid 0x0F) ]

/-- Opcodes 10 to 1F (R63, R64). -/
def opcodeRow1 : List Entry := [
  .f2 .bpl, .f2 .oraIndY, .f1 (.invalid 0x12), .f1 (.invalid 0x13),
  .f1 (.invalid 0x14), .f2 .oraZpX, .f2 .aslZpX, .f1 (.invalid 0x17),
  .f1 .clc, .f3 .oraAbsY, .f1 (.invalid 0x1A), .f1 (.invalid 0x1B),
  .f1 (.invalid 0x1C), .f3 .oraAbsX, .f3 .aslAbsX, .f1 (.invalid 0x1F) ]

/-- Opcodes 20 to 2F (R63, R64). -/
def opcodeRow2 : List Entry := [
  .f3 .jsr, .f2 .andIndX, .f1 (.invalid 0x22), .f1 (.invalid 0x23),
  .f2 .bitZp, .f2 .andZp, .f2 .rolZp, .f1 (.invalid 0x27),
  .f1 .plp, .f2 .andImm, .f1 .rolA, .f1 (.invalid 0x2B),
  .f3 .bitAbs, .f3 .andAbs, .f3 .rolAbs, .f1 (.invalid 0x2F) ]

/-- Opcodes 30 to 3F (R63, R64). -/
def opcodeRow3 : List Entry := [
  .f2 .bmi, .f2 .andIndY, .f1 (.invalid 0x32), .f1 (.invalid 0x33),
  .f1 (.invalid 0x34), .f2 .andZpX, .f2 .rolZpX, .f1 (.invalid 0x37),
  .f1 .sec, .f3 .andAbsY, .f1 (.invalid 0x3A), .f1 (.invalid 0x3B),
  .f1 (.invalid 0x3C), .f3 .andAbsX, .f3 .rolAbsX, .f1 (.invalid 0x3F) ]

/-- Opcodes 40 to 4F (R63, R64). -/
def opcodeRow4 : List Entry := [
  .f1 .rti, .f2 .eorIndX, .f1 (.invalid 0x42), .f1 (.invalid 0x43),
  .f1 (.invalid 0x44), .f2 .eorZp, .f2 .lsrZp, .f1 (.invalid 0x47),
  .f1 .pha, .f2 .eorImm, .f1 .lsrA, .f1 (.invalid 0x4B),
  .f3 .jmpAbs, .f3 .eorAbs, .f3 .lsrAbs, .f1 (.invalid 0x4F) ]

/-- Opcodes 50 to 5F (R63, R64). -/
def opcodeRow5 : List Entry := [
  .f2 .bvc, .f2 .eorIndY, .f1 (.invalid 0x52), .f1 (.invalid 0x53),
  .f1 (.invalid 0x54), .f2 .eorZpX, .f2 .lsrZpX, .f1 (.invalid 0x57),
  .f1 .cli, .f3 .eorAbsY, .f1 (.invalid 0x5A), .f1 (.invalid 0x5B),
  .f1 (.invalid 0x5C), .f3 .eorAbsX, .f3 .lsrAbsX, .f1 (.invalid 0x5F) ]

/-- Opcodes 60 to 6F (R63, R64). -/
def opcodeRow6 : List Entry := [
  .f1 .rts, .f2 .adcIndX, .f1 (.invalid 0x62), .f1 (.invalid 0x63),
  .f1 (.invalid 0x64), .f2 .adcZp, .f2 .rorZp, .f1 (.invalid 0x67),
  .f1 .pla, .f2 .adcImm, .f1 .rorA, .f1 (.invalid 0x6B),
  .f3 .jmpInd, .f3 .adcAbs, .f3 .rorAbs, .f1 (.invalid 0x6F) ]

/-- Opcodes 70 to 7F (R63, R64). -/
def opcodeRow7 : List Entry := [
  .f2 .bvs, .f2 .adcIndY, .f1 (.invalid 0x72), .f1 (.invalid 0x73),
  .f1 (.invalid 0x74), .f2 .adcZpX, .f2 .rorZpX, .f1 (.invalid 0x77),
  .f1 .sei, .f3 .adcAbsY, .f1 (.invalid 0x7A), .f1 (.invalid 0x7B),
  .f1 (.invalid 0x7C), .f3 .adcAbsX, .f3 .rorAbsX, .f1 (.invalid 0x7F) ]

/-- Opcodes 80 to 8F (R63, R64). -/
def opcodeRow8 : List Entry := [
  .f1 (.invalid 0x80), .f2 .staIndX, .f1 (.invalid 0x82), .f1 (.invalid 0x83),
  .f2 .styZp, .f2 .staZp, .f2 .stxZp, .f1 (.invalid 0x87),
  .f1 .dey, .f1 (.invalid 0x89), .f1 .txa, .f1 (.invalid 0x8B),
  .f3 .styAbs, .f3 .staAbs, .f3 .stxAbs, .f1 (.invalid 0x8F) ]

/-- Opcodes 90 to 9F (R63, R64). -/
def opcodeRow9 : List Entry := [
  .f2 .bcc, .f2 .staIndY, .f1 (.invalid 0x92), .f1 (.invalid 0x93),
  .f2 .styZpX, .f2 .staZpX, .f2 .stxZpY, .f1 (.invalid 0x97),
  .f1 .tya, .f3 .staAbsY, .f1 .txs, .f1 (.invalid 0x9B),
  .f1 (.invalid 0x9C), .f3 .staAbsX, .f1 (.invalid 0x9E), .f1 (.invalid 0x9F) ]

/-- Opcodes A0 to AF (R63, R64). -/
def opcodeRowA : List Entry := [
  .f2 .ldyImm, .f2 .ldaIndX, .f2 .ldxImm, .f1 (.invalid 0xA3),
  .f2 .ldyZp, .f2 .ldaZp, .f2 .ldxZp, .f1 (.invalid 0xA7),
  .f1 .tay, .f2 .ldaImm, .f1 .tax, .f1 (.invalid 0xAB),
  .f3 .ldyAbs, .f3 .ldaAbs, .f3 .ldxAbs, .f1 (.invalid 0xAF) ]

/-- Opcodes B0 to BF (R63, R64). -/
def opcodeRowB : List Entry := [
  .f2 .bcs, .f2 .ldaIndY, .f1 (.invalid 0xB2), .f1 (.invalid 0xB3),
  .f2 .ldyZpX, .f2 .ldaZpX, .f2 .ldxZpY, .f1 (.invalid 0xB7),
  .f1 .clv, .f3 .ldaAbsY, .f1 .tsx, .f1 (.invalid 0xBB),
  .f3 .ldyAbsX, .f3 .ldaAbsX, .f3 .ldxAbsY, .f1 (.invalid 0xBF) ]

/-- Opcodes C0 to CF (R63, R64). -/
def opcodeRowC : List Entry := [
  .f2 .cpyImm, .f2 .cmpIndX, .f1 (.invalid 0xC2), .f1 (.invalid 0xC3),
  .f2 .cpyZp, .f2 .cmpZp, .f2 .decZp, .f1 (.invalid 0xC7),
  .f1 .iny, .f2 .cmpImm, .f1 .dex, .f1 (.invalid 0xCB),
  .f3 .cpyAbs, .f3 .cmpAbs, .f3 .decAbs, .f1 (.invalid 0xCF) ]

/-- Opcodes D0 to DF (R63, R64). -/
def opcodeRowD : List Entry := [
  .f2 .bne, .f2 .cmpIndY, .f1 (.invalid 0xD2), .f1 (.invalid 0xD3),
  .f1 (.invalid 0xD4), .f2 .cmpZpX, .f2 .decZpX, .f1 (.invalid 0xD7),
  .f1 .cld, .f3 .cmpAbsY, .f1 (.invalid 0xDA), .f1 (.invalid 0xDB),
  .f1 (.invalid 0xDC), .f3 .cmpAbsX, .f3 .decAbsX, .f1 (.invalid 0xDF) ]

/-- Opcodes E0 to EF (R63, R64). -/
def opcodeRowE : List Entry := [
  .f2 .cpxImm, .f2 .sbcIndX, .f1 (.invalid 0xE2), .f1 (.invalid 0xE3),
  .f2 .cpxZp, .f2 .sbcZp, .f2 .incZp, .f1 (.invalid 0xE7),
  .f1 .inx, .f2 .sbcImm, .f1 .nop, .f1 (.invalid 0xEB),
  .f3 .cpxAbs, .f3 .sbcAbs, .f3 .incAbs, .f1 (.invalid 0xEF) ]

/-- Opcodes F0 to FF (R63, R64). -/
def opcodeRowF : List Entry := [
  .f2 .beq, .f2 .sbcIndY, .f1 (.invalid 0xF2), .f1 (.invalid 0xF3),
  .f1 (.invalid 0xF4), .f2 .sbcZpX, .f2 .incZpX, .f1 (.invalid 0xF7),
  .f1 .sed, .f3 .sbcAbsY, .f1 (.invalid 0xFA), .f1 (.invalid 0xFB),
  .f1 (.invalid 0xFC), .f3 .sbcAbsX, .f3 .incAbsX, .f1 (.invalid 0xFF) ]

/-- The 256 entries in opcode order (R62, R63). -/
def opcodeTable : List Entry :=
  opcodeRow0 ++ opcodeRow1 ++ opcodeRow2 ++ opcodeRow3 ++ opcodeRow4 ++ opcodeRow5 ++ opcodeRow6 ++ opcodeRow7
  ++ opcodeRow8 ++ opcodeRow9 ++ opcodeRowA ++ opcodeRowB ++ opcodeRowC ++ opcodeRowD ++ opcodeRowE ++ opcodeRowF

/-- `lookup : Byte -> InstructionEntry`, total over all 256 inputs (R62). The table has an entry for every byte
(`opcodeTable_length` in Laws/Decode.lean), so the default below is never used. -/
def lookup (op : Byte) : Entry := opcodeTable.getD op.toNat (.f1 (.invalid op))

/-- Why bytes do not give an instruction. No opcode byte is ever rejected (R62), so only missing bytes are. -/
inductive DecodeError where
  /-- There is no byte at all. -/
  | noOpcode
  /-- The opcode is there, but not all the operand bytes its mode needs (R66). -/
  | truncated (op : Byte)
deriving DecidableEq, Repr

/-- Reads one instruction from the front of a byte stream in increasing address order (R45, R60, R61), and gives the bytes
that follow it. -/
def decode : List Byte → Except DecodeError (Instr × List Byte)
  | [] => .error .noOpcode
  | op :: rest =>
    match lookup op, rest with
    | .f1 i, rest => .ok (i, rest)
    | .f2 build, b :: rest => .ok (build b, rest)
    | .f3 build, lo :: hi :: rest => .ok (build (wordOf lo hi), rest)
    | .f2 _, [] => .error (.truncated op)
    | .f3 _, [] => .error (.truncated op)
    | .f3 _, [_] => .error (.truncated op)

/-- The operand bytes of an addressing mode in memory order (R60, R61). -/
def MemMode.bytes : MemMode → List Byte
  | .zp b => [b]
  | .zpX b => [b]
  | .zpY b => [b]
  | .rel off => [off]
  | .abs w => [loByte w, hiByte w]
  | .absX w => [loByte w, hiByte w]
  | .absY w => [loByte w, hiByte w]
  | .ind w => [loByte w, hiByte w]
  | .indX b => [b]
  | .indY b => [b]

/-- The operand bytes of a mode in memory order (R60, R61). -/
def Form.bytes : Form → List Byte
  | .implied => []
  | .acc => []
  | .imm v => [v]
  | .mem m => m.bytes

/-- The opcode byte of an instruction (R63). -/
def opcode : Instr → Byte
  | .adcImm _ => 0x69
  | .adcZp _ => 0x65
  | .adcZpX _ => 0x75
  | .adcAbs _ => 0x6D
  | .adcAbsX _ => 0x7D
  | .adcAbsY _ => 0x79
  | .adcIndX _ => 0x61
  | .adcIndY _ => 0x71
  | .sbcImm _ => 0xE9
  | .sbcZp _ => 0xE5
  | .sbcZpX _ => 0xF5
  | .sbcAbs _ => 0xED
  | .sbcAbsX _ => 0xFD
  | .sbcAbsY _ => 0xF9
  | .sbcIndX _ => 0xE1
  | .sbcIndY _ => 0xF1
  | .cmpImm _ => 0xC9
  | .cmpZp _ => 0xC5
  | .cmpZpX _ => 0xD5
  | .cmpAbs _ => 0xCD
  | .cmpAbsX _ => 0xDD
  | .cmpAbsY _ => 0xD9
  | .cmpIndX _ => 0xC1
  | .cmpIndY _ => 0xD1
  | .cpxImm _ => 0xE0
  | .cpxZp _ => 0xE4
  | .cpxAbs _ => 0xEC
  | .cpyImm _ => 0xC0
  | .cpyZp _ => 0xC4
  | .cpyAbs _ => 0xCC
  | .aslA => 0x0A
  | .aslZp _ => 0x06
  | .aslZpX _ => 0x16
  | .aslAbs _ => 0x0E
  | .aslAbsX _ => 0x1E
  | .lsrA => 0x4A
  | .lsrZp _ => 0x46
  | .lsrZpX _ => 0x56
  | .lsrAbs _ => 0x4E
  | .lsrAbsX _ => 0x5E
  | .rolA => 0x2A
  | .rolZp _ => 0x26
  | .rolZpX _ => 0x36
  | .rolAbs _ => 0x2E
  | .rolAbsX _ => 0x3E
  | .rorA => 0x6A
  | .rorZp _ => 0x66
  | .rorZpX _ => 0x76
  | .rorAbs _ => 0x6E
  | .rorAbsX _ => 0x7E
  | .incZp _ => 0xE6
  | .incZpX _ => 0xF6
  | .incAbs _ => 0xEE
  | .incAbsX _ => 0xFE
  | .decZp _ => 0xC6
  | .decZpX _ => 0xD6
  | .decAbs _ => 0xCE
  | .decAbsX _ => 0xDE
  | .inx => 0xE8
  | .iny => 0xC8
  | .dex => 0xCA
  | .dey => 0x88
  | .andImm _ => 0x29
  | .andZp _ => 0x25
  | .andZpX _ => 0x35
  | .andAbs _ => 0x2D
  | .andAbsX _ => 0x3D
  | .andAbsY _ => 0x39
  | .andIndX _ => 0x21
  | .andIndY _ => 0x31
  | .oraImm _ => 0x09
  | .oraZp _ => 0x05
  | .oraZpX _ => 0x15
  | .oraAbs _ => 0x0D
  | .oraAbsX _ => 0x1D
  | .oraAbsY _ => 0x19
  | .oraIndX _ => 0x01
  | .oraIndY _ => 0x11
  | .eorImm _ => 0x49
  | .eorZp _ => 0x45
  | .eorZpX _ => 0x55
  | .eorAbs _ => 0x4D
  | .eorAbsX _ => 0x5D
  | .eorAbsY _ => 0x59
  | .eorIndX _ => 0x41
  | .eorIndY _ => 0x51
  | .bitZp _ => 0x24
  | .bitAbs _ => 0x2C
  | .ldaImm _ => 0xA9
  | .ldaZp _ => 0xA5
  | .ldaZpX _ => 0xB5
  | .ldaAbs _ => 0xAD
  | .ldaAbsX _ => 0xBD
  | .ldaAbsY _ => 0xB9
  | .ldaIndX _ => 0xA1
  | .ldaIndY _ => 0xB1
  | .ldxImm _ => 0xA2
  | .ldxZp _ => 0xA6
  | .ldxZpY _ => 0xB6
  | .ldxAbs _ => 0xAE
  | .ldxAbsY _ => 0xBE
  | .ldyImm _ => 0xA0
  | .ldyZp _ => 0xA4
  | .ldyZpX _ => 0xB4
  | .ldyAbs _ => 0xAC
  | .ldyAbsX _ => 0xBC
  | .staZp _ => 0x85
  | .staZpX _ => 0x95
  | .staAbs _ => 0x8D
  | .staAbsX _ => 0x9D
  | .staAbsY _ => 0x99
  | .staIndX _ => 0x81
  | .staIndY _ => 0x91
  | .stxZp _ => 0x86
  | .stxZpY _ => 0x96
  | .stxAbs _ => 0x8E
  | .styZp _ => 0x84
  | .styZpX _ => 0x94
  | .styAbs _ => 0x8C
  | .bcc _ => 0x90
  | .bcs _ => 0xB0
  | .beq _ => 0xF0
  | .bne _ => 0xD0
  | .bmi _ => 0x30
  | .bpl _ => 0x10
  | .bvc _ => 0x50
  | .bvs _ => 0x70
  | .jmpAbs _ => 0x4C
  | .jmpInd _ => 0x6C
  | .jsr _ => 0x20
  | .rts => 0x60
  | .pha => 0x48
  | .php => 0x08
  | .pla => 0x68
  | .plp => 0x28
  | .tax => 0xAA
  | .tay => 0xA8
  | .txa => 0x8A
  | .tya => 0x98
  | .tsx => 0xBA
  | .txs => 0x9A
  | .brk => 0x00
  | .rti => 0x40
  | .clc => 0x18
  | .sec => 0x38
  | .cli => 0x58
  | .sei => 0x78
  | .clv => 0xB8
  | .cld => 0xD8
  | .sed => 0xF8
  | .nop => 0xEA
  | .invalid op => op

/-- The bytes of an instruction: its opcode, then its operand bytes (R60). -/
def encode (i : Instr) : List Byte := opcode i :: i.form.bytes

/-- The three bytes that a number of `nbits` bits stands for, least significant byte first, zero above `nbits`: how
spec/opcode_table.json numbers the bits of an instruction. -/
def tableBytes (nbits w : Nat) : List Byte :=
  let v := w % 2 ^ nbits
  [BitVec.ofNat 8 v, BitVec.ofNat 8 (v / 256), BitVec.ofNat 8 (v / 65536)]

/-- What the decoder reads from an instruction whose bits are `w`, numbered as spec/opcode_table.json numbers them. -/
def decodeTableWord (nbits w : Nat) : Option Instr :=
  match decode (tableBytes nbits w) with
  | .ok (i, _) => some i
  | .error _ => none

end Sys2Proof
end

