-- ==== Sys2Proof/Config.lean ====
section
/-! DEFINITION. What the platform fixes for one machine (the parameters of R7), the bus events of R43, and the one free
value of the model: what a host handler answers to an intercepted read (R44). -/

namespace Sys2Proof

/-- One bus access as the event list records it (R43): `Read(a, v)` or `Write(a, v)`. -/
inductive BusEvent where
  | read (addr : Word) (value : Byte)
  | write (addr : Word) (value : Byte)
deriving DecidableEq, Repr

/-- The address a bus event is about. -/
def BusEvent.addr : BusEvent → Word
  | .read a _ => a
  | .write a _ => a

/-- The byte a bus event carries. -/
def BusEvent.value : BusEvent → Byte
  | .read _ v => v
  | .write _ v => v

/-- Whether a bus event is a read. -/
def BusEvent.isRead : BusEvent → Bool
  | .read _ _ => true
  | .write _ _ => false

/-- `ILLEGAL_POLICY` (R7, R240). -/
inductive IllegalPolicy where
  | halt
  | skip
deriving DecidableEq, Repr

/-- One intercepted stretch of addresses, both ends included: intercepts are installed "per address or range" (R43). -/
structure IoRange where
  lo : Word
  hi : Word
deriving DecidableEq, Repr

/-- The parameters of R7, fixed for one machine. `IoRead`, the fifth, is `Config.ioRead` below. -/
structure Config where
  /-- `ILLEGAL_POLICY`: what an Invalid opcode does (R240). -/
  illegalPolicy : IllegalPolicy
  /-- `JMP_IND_WRAP_BUG`: whether JMP (abs) has the page-wrap defect (R90). -/
  jmpIndWrapBug : Bool
  /-- `RESET_SP`: the stack pointer RESET leaves (R271). -/
  resetSp : Byte
  /-- `IO_MAP`: the intercepted addresses, as a list of ranges (R44). -/
  ioMap : List IoRange
deriving DecidableEq, Repr

/-- The values this spec gives the parameters (R7): Halt, the faithful defect, 0xFF. `IO_MAP` is OPEN there; the default
intercepts nothing (DESIGN CHOICE, notes/assumptions/2.md). -/
def Config.default : Config where
  illegalPolicy := .halt
  jmpIndWrapBug := true
  resetSp := 0xFF
  ioMap := []

/-- `IoRead(a, history)` (R7, R44): what the host handler answers to a read of the intercepted address `a` after the bus
history given. It is a draw "under no law": a FREE VALUE, with no body, so no proof can know it
(notes/assumptions/3.md). -/
opaque Config.ioRead : Word → List BusEvent → Byte

end Sys2Proof
end

