-- ==== Sys2Proof/Machine/State.lean ====
section
/-! DEFINITION. The state of the block: the tuple of R31 with the memory image of R40, the bus event lists of R43 and R44,
the return value of the last step (R100), and the machine's parameters (R7). All of it is plain data. -/

namespace Sys2Proof.Machine

/-- The memory image of R40, as its cells that do not hold `Memory.unlisted`: (address, byte) pairs, addresses strictly
rising. -/
abbrev Memory := List Host.Cell

/-- What a cell that no entry lists holds. The source gives the image no contents before the loader's (DESIGN CHOICE,
notes/assumptions/1.md). -/
def Memory.unlisted : Byte := 0

/-- The canonical form from an address on: addresses rise strictly, stay below 65536, and no entry equals `unlisted`. -/
def Memory.wfFrom : Nat → Memory → Bool
  | _, [] => true
  | least, (a, v) :: rest =>
    decide (least ≤ a) && decide (a < 65536) && decide (v ≠ Memory.unlisted) && Memory.wfFrom (a + 1) rest

/-- The canonical form of the memory image: equal images are equal lists. -/
def Memory.wf (m : Memory) : Bool := Memory.wfFrom 0 m

/-- The six flags, each a named Bool (R24, R26). The packed byte exists only at the stack boundary. -/
structure Flags where
  /-- Carry. -/
  c : Bool
  /-- Zero. -/
  z : Bool
  /-- InterruptDisable. -/
  i : Bool
  /-- Decimal: stored only (R26). -/
  d : Bool
  /-- Overflow. -/
  v : Bool
  /-- Negative. -/
  n : Bool
deriving DecidableEq, Repr

/-- What a call of `Step()` returned (R100): `Ok(cycles)`, or `Fault(IllegalOpcode(pc, op))` (R239). -/
inductive StepResult where
  | ok (cycles : Nat)
  | illegalOpcode (pc : Word) (op : Byte)
deriving DecidableEq, Repr

/-- The state of the machine. -/
structure State where
  /-- The accumulator (R20). -/
  a : Byte
  /-- The index register X (R21). -/
  x : Byte
  /-- The index register Y (R21). -/
  y : Byte
  /-- The stack pointer, an index into page 1 (R22). -/
  sp : Byte
  /-- The program counter: between steps, and while an instruction executes, the address of its opcode (R23). -/
  pc : Word
  /-- The six flags (R24, R26). -/
  p : Flags
  /-- The NMI latch (R28). -/
  nmiPending : Bool
  /-- The IRQ latch (R28). -/
  irqPending : Bool
  /-- The halted mark (R29). -/
  halted : Bool
  /-- The opcode byte that halted the block (R29). -/
  haltOpcode : Byte
  /-- The memory image (R40). -/
  mem : Memory
  /-- The event list of the step in progress, or of the last step or `Reset()`, oldest event first (R43). -/
  events : List BusEvent
  /-- The bus events of all earlier steps and resets, oldest first. `past ++ events` is the history that an intercepted
  read is answered from (R44). -/
  past : List BusEvent
  /-- What the last step returned (R100), none since `Reset()` when no step has been made. R30 calls the count a return
  value, not state of the block: it stands here because the host's `Outcome` has no place for it
  (notes/assumptions/5.md). -/
  result : Option StepResult
  /-- The machine's parameters (R7), which no transition changes. -/
  cfg : Config
deriving DecidableEq, Repr

/-- Why a step stops. -/
inductive Fault where
  /-- Raised by `step` alone, in the halted state: `Fault(IllegalOpcode(pc, op))` is returned again, with no bus access and
  no change of state (R113). Safe: it is what the spec says the step returns, and only `Reset()` leaves the state. -/
  | illegalOpcode (pc : Word) (op : Byte)
deriving DecidableEq, Repr

/-- Why a step is refused. -/
inductive Refusal where
  /-- Raised by `exec` for an instruction that has no meaning yet; no arm of this model raises it. Safe: the machine stops. -/
  | notModelled (mnemonic : String)
deriving DecidableEq, Repr

/-- How a meaning, or a step, ends. -/
abbrev Ending := Host.Outcome State Fault Refusal

/-- The machine right after `Reset()` (R270 to R276) with the parameters of `Config.default` and a memory image that lists
nothing. The vector therefore reads as 0x0000; the two events are the reads of the vector, Reset's only bus accesses. -/
def State.reset : State where
  a := 0x00
  x := 0x00
  y := 0x00
  sp := 0xFF
  pc := 0x0000
  p := ⟨false, false, true, false, false, false⟩
  nmiPending := false
  irqPending := false
  halted := false
  haltOpcode := 0x00
  mem := []
  events := [.read 0xFFFC 0x00, .read 0xFFFD 0x00]
  past := []
  result := none
  cfg := Config.default

end Sys2Proof.Machine
end

