-- ==== Sys2Proof/Machine/Flags.lean ====
section
/-! DEFINITION. The packed status byte (R24, R25) and every flag computation of the spec. -/

namespace Sys2Proof.Machine

/-- A flag placed at bit k of a byte. -/
def flagAt (f : Bool) (k : Nat) : Byte := if f then 1 <<< k else 0

/-- `PackP(b)`: the status byte as it is pushed, N V 1 B D I Z C, with the push-source bit `b` (R24). -/
def packP (b : Bool) (p : Flags) : Byte :=
  flagAt p.n 7 ||| flagAt p.v 6 ||| flagAt true 5 ||| flagAt b 4 ||| flagAt p.d 3 ||| flagAt p.i 2 ||| flagAt p.z 1
    ||| flagAt p.c 0

/-- `UnpackP(v)`: the six flags of a pulled byte; bits 5 and 4 are discarded (R25). -/
def unpackP (v : Byte) : Flags where
  c := v.getLsbD 0
  z := v.getLsbD 1
  i := v.getLsbD 2
  d := v.getLsbD 3
  v := v.getLsbD 6
  n := v.getLsbD 7

/-- `SetZN(v)`: both flags take their full new value (R108). -/
def setZN (v : Byte) (p : Flags) : Flags := { p with z := v == 0, n := v.getLsbD 7 }

/-- What an addition with carry gives: the low byte of the sum, its carry out and the signed overflow. -/
structure Sum where
  res : Byte
  carry : Bool
  overflow : Bool
deriving DecidableEq, Repr

/-- `A + M + C` in a widened 9-bit intermediate (R120). The D flag plays no part (R125). -/
def addWithCarry (a m : Byte) (c : Bool) : Sum :=
  let sum : BitVec 9 := a.setWidth 9 + m.setWidth 9 + (BitVec.ofBool c).setWidth 9
  let res : Byte := sum.setWidth 8
  { res := res, carry := sum.getLsbD 8, overflow := ((a ^^^ res) &&& (m ^^^ res)).getLsbD 7 }

/-- `A - M - (1 - C)`: the same sum with the ones' complement of the operand (R121, 90_conflicts.md C2). -/
def subWithBorrow (a m : Byte) (c : Bool) : Sum := addWithCarry a (m ^^^ 0xFF) c

/-- The flags of ADC and SBC: C, V, Z and N from a sum (R120, R121). -/
def sumFlags (r : Sum) (p : Flags) : Flags := setZN r.res { p with c := r.carry, v := r.overflow }

/-- The flags of CMP, CPX and CPY: C, Z and N from register and operand; V is not written (R122 to R124). -/
def compareFlags (r m : Byte) (p : Flags) : Flags :=
  { p with c := decide (m.toNat ≤ r.toNat), z := r == m, n := (r - m).getLsbD 7 }

/-- The flags of BIT: Z from A and M, V and N from bits 6 and 7 of M (R153). -/
def bitFlags (a m : Byte) (p : Flags) : Flags :=
  { p with z := (a &&& m) == 0, v := m.getLsbD 6, n := m.getLsbD 7 }

/-- The flags of a shift or rotate: C is the bit shifted out, Z and N come from the result (R130 to R133). -/
def shiftFlags (res : Byte) (out : Bool) (p : Flags) : Flags := setZN res { p with c := out }

end Sys2Proof.Machine
end

