-- ==== Sys2Proof/Machine/Memory.lean ====
section
/-! DEFINITION. Reading and writing one cell of the memory image (R40). The key of a cell is its address as a number. -/

namespace Sys2Proof.Machine

/-- The byte the image holds at an address (R40, R43). -/
def Memory.read : Memory → Nat → Byte
  | [], _ => Memory.unlisted
  | (b, w) :: rest, a => if a = b then w else Memory.read rest a

/-- The image with one cell set (R43), in canonical form: setting a cell to `Memory.unlisted` takes its entry out. -/
def Memory.write : Memory → Nat → Byte → Memory
  | [], a, v => if v = Memory.unlisted then [] else [(a, v)]
  | (b, w) :: rest, a, v =>
    if a < b then (if v = Memory.unlisted then (b, w) :: rest else (a, v) :: (b, w) :: rest)
    else if a = b then (if v = Memory.unlisted then rest else (a, v) :: rest)
    else (b, w) :: Memory.write rest a v

/-- The byte of the image at a 16-bit address: what a read of an address outside `IO_MAP` answers (R43). -/
def State.byteAt (s : State) (a : Word) : Byte := s.mem.read a.toNat

end Sys2Proof.Machine
end

