-- ==== Sys2Proof/Machine/Ops.lean ====
section
/-! DEFINITION. The named operations every meaning is made of: the bus (R43, R44, R46, R47), the stack (R49 to R52), the
advance of the program counter (R106), interrupt entry and return (R210, R211, R233), and the IllegalOpcode policy
(R239, R240). -/

namespace Sys2Proof.Machine

/-- An 8-bit value as a 16-bit one, zero-extended (R8). -/
def zext16 (v : Byte) : Word := v.setWidth 16

/-- An 8-bit value as a 16-bit one, sign-extended (R8). -/
def sext16 (v : Byte) : Word := v.signExtend 16

/-- Whether a range of `IO_MAP` holds an address; both its ends belong to it (R44). -/
def rangeHolds (r : IoRange) (a : Word) : Bool := decide (r.lo.toNat ≤ a.toNat) && decide (a.toNat ≤ r.hi.toNat)

/-- Whether an address is in `IO_MAP` (R44). -/
def intercepted (a : Word) (s : State) : Bool := s.cfg.ioMap.any fun r => rangeHolds r a

/-- All bus events so far, the history an intercepted read is answered from (R44). -/
def history (s : State) : List BusEvent := s.past ++ s.events

/-- The byte a bus read of an address answers now: the host handler's for an intercepted address, else the image's (R43). -/
def busValue (a : Word) (s : State) : Byte :=
  if intercepted a s then Config.ioRead a (history s) else s.byteAt a

/-- `MemRead(a, 1)`: one bus read, recorded in the event list (R43). -/
def busRead (a : Word) (s : State) : Byte × State :=
  let v := busValue a s
  (v, { s with events := s.events ++ [.read a v] })

/-- `MemWrite(a, 1, v)`: one bus write, recorded in the event list (R43). A write to an intercepted address is delivered to
the host (its event is the delivery) and does not define the image's cell (R44). -/
def busWrite (a : Word) (v : Byte) (s : State) : State :=
  { s with
    mem := if intercepted a s then s.mem else s.mem.write a.toNat v
    events := s.events ++ [.write a v] }

/-- Two bus reads put together little-endian: the low byte's address first, then the high byte's (R45). -/
def readPair (lowAt highAt : Word) (s : State) : Word × State :=
  let (lo, s1) := busRead lowAt s
  let (hi, s2) := busRead highAt s1
  (wordOf lo hi, s2)

/-- `Read16(a)`: low byte, then high byte, the second address modulo 65536 (R46). -/
def read16 (a : Word) (s : State) : Word × State := readPair a (a + 1) s

/-- `Read16ZP(p)`: a pointer in the zero page, its second byte wrapping within page 0 (R47). -/
def read16ZP (p : Byte) (s : State) : Word × State := readPair (zext16 p) (zext16 (p + 1)) s

/-- The address a stack pointer names, always in page 1 (R22, R49). -/
def stackAddr (sp : Byte) : Word := 0x0100 + zext16 sp

/-- `Push(v)`: write at the stack pointer's address, then decrement it modulo 256 (R49, R51). -/
def push (v : Byte) (s : State) : State :=
  let s1 := busWrite (stackAddr s.sp) v s
  { s1 with sp := s1.sp - 1 }

/-- `Pull()`: increment the stack pointer modulo 256, then read at its address (R50, R51). -/
def pull (s : State) : Byte × State :=
  let s1 := { s with sp := s.sp + 1 }
  busRead (stackAddr s1.sp) s1

/-- `Push16(w)`: high byte first, then low byte (R52). -/
def push16 (w : Word) (s : State) : State := push (loByte w) (push (hiByte w) s)

/-- `Pull16()`: low byte first, then high byte (R52). -/
def pull16 (s : State) : Word × State :=
  let (lo, s1) := pull s
  let (hi, s2) := pull s1
  (wordOf lo hi, s2)

/-- The generic advance `PC <- NEXT`, `NEXT = (PC + 1 + LEN) mod 65536` (R106). -/
def advance (len : Nat) (s : State) : State := { s with pc := s.pc + 1 + BitVec.ofNat 16 len }

/-- The NMI vector (R48). -/
def nmiVector : Word := 0xFFFA

/-- The RESET vector (R48). -/
def resetVector : Word := 0xFFFC

/-- The vector IRQ and BRK share (R48). -/
def irqVector : Word := 0xFFFE

/-- INTERRUPT ENTRY, the one operation that BRK, NMI and IRQ share (R210, R233): push the return address, then the status
with the push-source bit, set I, and load PC from the vector. The status pushed is the one before I is set; D is not
changed. -/
def enterInterrupt (ret : Word) (pushSource : Bool) (vector : Word) (s : State) : State :=
  let s1 := push (packP pushSource s.p) (push16 ret s)
  let s2 := { s1 with p := { s1.p with i := true } }
  let (target, s3) := read16 vector s2
  { s3 with pc := target }

/-- RETURN FROM AN INTERRUPT (R211, R238): pull the status, then the PC, with nothing added to it. -/
def returnFromInterrupt (s : State) : State :=
  let (status, s1) := pull s
  let (target, s2) := pull16 { s1 with p := unpackP status }
  { s2 with pc := target }

/-- The sampling at the start of a step (R231). -/
def takesInterrupt (s : State) : Bool := s.nmiPending || (s.irqPending && !s.p.i)

/-- `InterruptSequence()`: NMI before IRQ, the served latch cleared, push-source bit 0; the step returns 7 (R232, R233,
R284). -/
def interruptSequence (s : State) : State :=
  let s1 :=
    if s.nmiPending then enterInterrupt s.pc false nmiVector { s with nmiPending := false }
    else enterInterrupt s.pc false irqVector { s with irqPending := false }
  { s1 with result := some (.ok 7) }

/-- IllegalOpcode under the machine's policy (R239, R240, R284). Under Halt the block is marked halted, PC stays at the
opcode and the step returns the fault; under Skip PC moves on by one byte and the step returns `Ok(2)`. -/
def illegalOpcode (op : Byte) (s : State) : State :=
  match s.cfg.illegalPolicy with
  | .halt => { s with halted := true, haltOpcode := op, result := some (.illegalOpcode s.pc op) }
  | .skip => { advance 0 s with result := some (.ok 2) }

/-- The start of a step or of `Reset()`: its event list is empty, and the last one has become history (R43, R44). -/
def beginEvents (s : State) : State := { s with past := s.past ++ s.events, events := [] }

end Sys2Proof.Machine
end

