-- ==== Sys2Proof/Machine/Operands.lean ====
section
/-! DEFINITION. The address resolver of 40_address_resolver.md and the operand access of R104 and R105. The operand bytes
themselves were read by the fetch (`fetch`, in the order R94 gives) and stand in the instruction; what is left to the
resolver are the reads of pointers. -/

namespace Sys2Proof.Machine

/-- `LEN` of a mode with an address (R84 to R92, R94). -/
def memLen : MemMode → Nat
  | .zp _ => 1
  | .zpX _ => 1
  | .zpY _ => 1
  | .rel _ => 1
  | .abs _ => 2
  | .absX _ => 2
  | .absY _ => 2
  | .ind _ => 2
  | .indX _ => 1
  | .indY _ => 1

/-- `LEN`, the number of operand bytes of a mode (R80 to R92). -/
def formLen : Form → Nat
  | .implied => 0
  | .acc => 0
  | .imm _ => 1
  | .mem m => memLen m

/-- Where the high byte of an Indirect pointer is read: under the page-wrap defect a pointer at 0xnnFF takes it from
0xnn00 (R90). -/
def indirectHighAt (ptr : Word) (s : State) : Word :=
  if s.cfg.jmpIndWrapBug && loByte ptr == 0xFF then ptr &&& 0xFF00 else ptr + 1

/-- `Resolve(mode)` for the modes that have an address: the effective address, and the state after the pointer reads. `PC`
is the address of the opcode (R80, R103). -/
def resolve (m : MemMode) (s : State) : Word × State :=
  match m with
  | .zp b => (zext16 b, s)
  | .zpX b => (zext16 (b + s.x), s)
  | .zpY b => (zext16 (b + s.y), s)
  | .rel off => (s.pc + 2 + sext16 off, s)
  | .abs w => (w, s)
  | .absX w => (w + zext16 s.x, s)
  | .absY w => (w + zext16 s.y, s)
  | .ind w => readPair w (indirectHighAt w s) s
  | .indX b => read16ZP (b + s.x) s
  | .indY b =>
    let (base, s1) := read16ZP b s
    (base + zext16 s1.y, s1)

/-- The effective address of a mode (R80). -/
def effectiveAddress (m : MemMode) (s : State) : Word := (resolve m s).1

/-- `ReadOperand()` of an instruction that only reads: the immediate byte (which the fetch read at EA = PC + 1, R83), or
one bus read at EA (R104). -/
def readSource (src : Source) (s : State) : Byte × State :=
  match src with
  | .imm v => (v, s)
  | .mem m =>
    let (ea, s1) := resolve m s
    busRead ea s1

/-- A store: `WriteOperand(v)` at EA, which is not read (R53, R105). -/
def writeMem (m : MemMode) (v : Byte) (s : State) : State :=
  let (ea, s1) := resolve m s
  busWrite ea v s1

/-- Where a shift operand is after the resolver ran: the accumulator or a cell. -/
inductive Place where
  | acc
  | cell (ea : Word)
deriving DecidableEq, Repr

/-- The resolver for a shift operand (R82, R103). -/
def resolveTarget (t : Target) (s : State) : Place × State :=
  match t with
  | .acc => (.acc, s)
  | .mem m =>
    let (ea, s1) := resolve m s
    (.cell ea, s1)

/-- `ReadOperand()`: A in Accumulator mode, else one bus read at EA (R104). -/
def readPlace (pl : Place) (s : State) : Byte × State :=
  match pl with
  | .acc => (s.a, s)
  | .cell ea => busRead ea s

/-- `WriteOperand(v)`: A in Accumulator mode, else one bus write at EA (R105). -/
def writePlace (pl : Place) (v : Byte) (s : State) : State :=
  match pl with
  | .acc => { s with a := v }
  | .cell ea => busWrite ea v s

end Sys2Proof.Machine
end

