-- ==== Sys2Proof/Machine/Arith.lean ====
section
/-! DEFINITION. Arithmetic and compare (42_arith_compare.md): ADC, SBC, CMP, CPX, CPY. The shared operations of the family stand first,
then one meaning for each row of the opcode table. -/

namespace Sys2Proof.Machine

/-- ADC (R120). -/
def adc (src : Source) (s : State) : State :=
  let (m, s1) := readSource src s
  let r := addWithCarry s.a m s.p.c
  advance (formLen src.form) { s1 with a := r.res, p := sumFlags r s.p }

/-- SBC (R121). -/
def sbc (src : Source) (s : State) : State :=
  let (m, s1) := readSource src s
  let r := subWithBorrow s.a m s.p.c
  advance (formLen src.form) { s1 with a := r.res, p := sumFlags r s.p }

/-- CMP, CPX and CPY with the register's value given (R122 to R124): only flags are written. -/
def compareWith (reg : Byte) (src : Source) (s : State) : State :=
  let (m, s1) := readSource src s
  advance (formLen src.form) { s1 with p := compareFlags reg m s.p }

/-- `ADC #v`, opcode 69 (R120, R83). -/
def execAdcImm (v : Byte) (s : State) : Ending := .next (adc (.imm v) s)

/-- `ADC b`, opcode 65 (R120, R84). -/
def execAdcZp (b : Byte) (s : State) : Ending := .next (adc (.mem (.zp b)) s)

/-- `ADC b,X`, opcode 75 (R120, R85). -/
def execAdcZpX (b : Byte) (s : State) : Ending := .next (adc (.mem (.zpX b)) s)

/-- `ADC w`, opcode 6D (R120, R88). -/
def execAdcAbs (w : Word) (s : State) : Ending := .next (adc (.mem (.abs w)) s)

/-- `ADC w,X`, opcode 7D (R120, R89). -/
def execAdcAbsX (w : Word) (s : State) : Ending := .next (adc (.mem (.absX w)) s)

/-- `ADC w,Y`, opcode 79 (R120, R89). -/
def execAdcAbsY (w : Word) (s : State) : Ending := .next (adc (.mem (.absY w)) s)

/-- `ADC (b,X)`, opcode 61 (R120, R91). -/
def execAdcIndX (b : Byte) (s : State) : Ending := .next (adc (.mem (.indX b)) s)

/-- `ADC (b),Y`, opcode 71 (R120, R92). -/
def execAdcIndY (b : Byte) (s : State) : Ending := .next (adc (.mem (.indY b)) s)

/-- `SBC #v`, opcode E9 (R121, R83). -/
def execSbcImm (v : Byte) (s : State) : Ending := .next (sbc (.imm v) s)

/-- `SBC b`, opcode E5 (R121, R84). -/
def execSbcZp (b : Byte) (s : State) : Ending := .next (sbc (.mem (.zp b)) s)

/-- `SBC b,X`, opcode F5 (R121, R85). -/
def execSbcZpX (b : Byte) (s : State) : Ending := .next (sbc (.mem (.zpX b)) s)

/-- `SBC w`, opcode ED (R121, R88). -/
def execSbcAbs (w : Word) (s : State) : Ending := .next (sbc (.mem (.abs w)) s)

/-- `SBC w,X`, opcode FD (R121, R89). -/
def execSbcAbsX (w : Word) (s : State) : Ending := .next (sbc (.mem (.absX w)) s)

/-- `SBC w,Y`, opcode F9 (R121, R89). -/
def execSbcAbsY (w : Word) (s : State) : Ending := .next (sbc (.mem (.absY w)) s)

/-- `SBC (b,X)`, opcode E1 (R121, R91). -/
def execSbcIndX (b : Byte) (s : State) : Ending := .next (sbc (.mem (.indX b)) s)

/-- `SBC (b),Y`, opcode F1 (R121, R92). -/
def execSbcIndY (b : Byte) (s : State) : Ending := .next (sbc (.mem (.indY b)) s)

/-- `CMP #v`, opcode C9 (R122, R83). -/
def execCmpImm (v : Byte) (s : State) : Ending := .next (compareWith s.a (.imm v) s)

/-- `CMP b`, opcode C5 (R122, R84). -/
def execCmpZp (b : Byte) (s : State) : Ending := .next (compareWith s.a (.mem (.zp b)) s)

/-- `CMP b,X`, opcode D5 (R122, R85). -/
def execCmpZpX (b : Byte) (s : State) : Ending := .next (compareWith s.a (.mem (.zpX b)) s)

/-- `CMP w`, opcode CD (R122, R88). -/
def execCmpAbs (w : Word) (s : State) : Ending := .next (compareWith s.a (.mem (.abs w)) s)

/-- `CMP w,X`, opcode DD (R122, R89). -/
def execCmpAbsX (w : Word) (s : State) : Ending := .next (compareWith s.a (.mem (.absX w)) s)

/-- `CMP w,Y`, opcode D9 (R122, R89). -/
def execCmpAbsY (w : Word) (s : State) : Ending := .next (compareWith s.a (.mem (.absY w)) s)

/-- `CMP (b,X)`, opcode C1 (R122, R91). -/
def execCmpIndX (b : Byte) (s : State) : Ending := .next (compareWith s.a (.mem (.indX b)) s)

/-- `CMP (b),Y`, opcode D1 (R122, R92). -/
def execCmpIndY (b : Byte) (s : State) : Ending := .next (compareWith s.a (.mem (.indY b)) s)

/-- `CPX #v`, opcode E0 (R123, R83). -/
def execCpxImm (v : Byte) (s : State) : Ending := .next (compareWith s.x (.imm v) s)

/-- `CPX b`, opcode E4 (R123, R84). -/
def execCpxZp (b : Byte) (s : State) : Ending := .next (compareWith s.x (.mem (.zp b)) s)

/-- `CPX w`, opcode EC (R123, R88). -/
def execCpxAbs (w : Word) (s : State) : Ending := .next (compareWith s.x (.mem (.abs w)) s)

/-- `CPY #v`, opcode C0 (R124, R83). -/
def execCpyImm (v : Byte) (s : State) : Ending := .next (compareWith s.y (.imm v) s)

/-- `CPY b`, opcode C4 (R124, R84). -/
def execCpyZp (b : Byte) (s : State) : Ending := .next (compareWith s.y (.mem (.zp b)) s)

/-- `CPY w`, opcode CC (R124, R88). -/
def execCpyAbs (w : Word) (s : State) : Ending := .next (compareWith s.y (.mem (.abs w)) s)

end Sys2Proof.Machine
end

