-- ==== Sys2Proof/Machine/Control.lean ====
section
/-! DEFINITION. Control flow (46_control_flow.md): the eight branches, JMP, JSR, RTS. None of them writes a flag. The shared operations of the family stand first,
then one meaning for each row of the opcode table. -/

namespace Sys2Proof.Machine

/-- `Branch(cond)`: EA if the condition holds, else the next instruction (R170). EA is computed either way (R87). -/
def branch (cond : Bool) (off : Byte) (s : State) : State :=
  let (ea, s1) := resolve (.rel off) s
  if cond then { s1 with pc := ea } else advance (memLen (.rel off)) s1

/-- JMP: PC takes EA, and nothing is read at EA (R179). -/
def jump (m : MemMode) (s : State) : State :=
  let (ea, s1) := resolve m s
  { s1 with pc := ea }

/-- JSR: push the address of its own last byte, then jump. The target was read before the pushes (R180). -/
def jumpSubroutine (w : Word) (s : State) : State :=
  let (ea, s1) := resolve (.abs w) s
  { push16 (s.pc + 2) s1 with pc := ea }

/-- RTS: pull a return address and go to the byte after it (R181). -/
def returnFromSubroutine (s : State) : State :=
  let (ret, s1) := pull16 s
  { s1 with pc := ret + 1 }

/-- `BCC off`, opcode 90 (R171, R87). -/
def execBcc (off : Byte) (s : State) : Ending := .next (branch (!s.p.c) off s)

/-- `BCS off`, opcode B0 (R172, R87). -/
def execBcs (off : Byte) (s : State) : Ending := .next (branch s.p.c off s)

/-- `BEQ off`, opcode F0 (R173, R87). -/
def execBeq (off : Byte) (s : State) : Ending := .next (branch s.p.z off s)

/-- `BNE off`, opcode D0 (R174, R87). -/
def execBne (off : Byte) (s : State) : Ending := .next (branch (!s.p.z) off s)

/-- `BMI off`, opcode 30 (R175, R87). -/
def execBmi (off : Byte) (s : State) : Ending := .next (branch s.p.n off s)

/-- `BPL off`, opcode 10 (R176, R87). -/
def execBpl (off : Byte) (s : State) : Ending := .next (branch (!s.p.n) off s)

/-- `BVC off`, opcode 50 (R177, R87). -/
def execBvc (off : Byte) (s : State) : Ending := .next (branch (!s.p.v) off s)

/-- `BVS off`, opcode 70 (R178, R87). -/
def execBvs (off : Byte) (s : State) : Ending := .next (branch s.p.v off s)

/-- `JMP w`, opcode 4C (R179, R88). -/
def execJmpAbs (w : Word) (s : State) : Ending := .next (jump (.abs w) s)

/-- `JMP (w)`, opcode 6C (R179, R90). -/
def execJmpInd (w : Word) (s : State) : Ending := .next (jump (.ind w) s)

/-- `JSR w`, opcode 20 (R180, R88). -/
def execJsr (w : Word) (s : State) : Ending := .next (jumpSubroutine w s)

/-- `RTS`, opcode 60 (R181, R81). -/
def execRts (s : State) : Ending := .next (returnFromSubroutine s)

end Sys2Proof.Machine
end

