-- ==== Sys2Proof/Machine/IncDec.lean ====
section
/-! DEFINITION. Increment and decrement (44_inc_dec.md): INC, DEC, INX, INY, DEX, DEY. None of them touches C or V. The shared operations of the family stand first,
then one meaning for each row of the opcode table. -/

namespace Sys2Proof.Machine

/-- INC and DEC: read the cell once, write it once, then Z and N (R140, R141). -/
def stepCell (f : Byte → Byte) (m : MemMode) (s : State) : State :=
  let (ea, s1) := resolve m s
  let (v, s2) := busRead ea s1
  advance (memLen m) (busWrite ea (f v) { s2 with p := setZN (f v) s.p })

/-- `INC b`, opcode E6 (R140, R84). -/
def execIncZp (b : Byte) (s : State) : Ending := .next (stepCell (· + 1) (.zp b) s)

/-- `INC b,X`, opcode F6 (R140, R85). -/
def execIncZpX (b : Byte) (s : State) : Ending := .next (stepCell (· + 1) (.zpX b) s)

/-- `INC w`, opcode EE (R140, R88). -/
def execIncAbs (w : Word) (s : State) : Ending := .next (stepCell (· + 1) (.abs w) s)

/-- `INC w,X`, opcode FE (R140, R89). -/
def execIncAbsX (w : Word) (s : State) : Ending := .next (stepCell (· + 1) (.absX w) s)

/-- `DEC b`, opcode C6 (R141, R84). -/
def execDecZp (b : Byte) (s : State) : Ending := .next (stepCell (· - 1) (.zp b) s)

/-- `DEC b,X`, opcode D6 (R141, R85). -/
def execDecZpX (b : Byte) (s : State) : Ending := .next (stepCell (· - 1) (.zpX b) s)

/-- `DEC w`, opcode CE (R141, R88). -/
def execDecAbs (w : Word) (s : State) : Ending := .next (stepCell (· - 1) (.abs w) s)

/-- `DEC w,X`, opcode DE (R141, R89). -/
def execDecAbsX (w : Word) (s : State) : Ending := .next (stepCell (· - 1) (.absX w) s)

/-- `INX`, opcode E8 (R142, R81). -/
def execInx (s : State) : Ending := .next (advance 0 { s with x := s.x + 1, p := setZN (s.x + 1) s.p })

/-- `INY`, opcode C8 (R143, R81). -/
def execIny (s : State) : Ending := .next (advance 0 { s with y := s.y + 1, p := setZN (s.y + 1) s.p })

/-- `DEX`, opcode CA (R144, R81). -/
def execDex (s : State) : Ending := .next (advance 0 { s with x := s.x - 1, p := setZN (s.x - 1) s.p })

/-- `DEY`, opcode 88 (R145, R81). -/
def execDey (s : State) : Ending := .next (advance 0 { s with y := s.y - 1, p := setZN (s.y - 1) s.p })

end Sys2Proof.Machine
end

