-- ==== Sys2Proof/Machine/Logic.lean ====
section
/-! DEFINITION. Logic, bit test, loads and stores (45_logic_load_store.md). The shared operations of the family stand first,
then one meaning for each row of the opcode table. -/

namespace Sys2Proof.Machine

/-- AND, ORA and EOR: A takes `f A M`, then Z and N (R150 to R152). -/
def logic (f : Byte → Byte → Byte) (src : Source) (s : State) : State :=
  let (m, s1) := readSource src s
  advance (formLen src.form) { s1 with a := f s.a m, p := setZN (f s.a m) s.p }

/-- BIT: flags only (R153). -/
def bitTest (m : MemMode) (s : State) : State :=
  let (v, s1) := readSource (.mem m) s
  advance (memLen m) { s1 with p := bitFlags s.a v s.p }

/-- LDA (R154). -/
def loadA (src : Source) (s : State) : State :=
  let (m, s1) := readSource src s
  advance (formLen src.form) { s1 with a := m, p := setZN m s.p }

/-- LDX (R155). -/
def loadX (src : Source) (s : State) : State :=
  let (m, s1) := readSource src s
  advance (formLen src.form) { s1 with x := m, p := setZN m s.p }

/-- LDY (R156). -/
def loadY (src : Source) (s : State) : State :=
  let (m, s1) := readSource src s
  advance (formLen src.form) { s1 with y := m, p := setZN m s.p }

/-- STA, STX and STY: write a register's value at EA; no flag is written (R157 to R159). -/
def store (v : Byte) (m : MemMode) (s : State) : State := advance (memLen m) (writeMem m v s)

/-- `AND #v`, opcode 29 (R150, R83). -/
def execAndImm (v : Byte) (s : State) : Ending := .next (logic (· &&& ·) (.imm v) s)

/-- `AND b`, opcode 25 (R150, R84). -/
def execAndZp (b : Byte) (s : State) : Ending := .next (logic (· &&& ·) (.mem (.zp b)) s)

/-- `AND b,X`, opcode 35 (R150, R85). -/
def execAndZpX (b : Byte) (s : State) : Ending := .next (logic (· &&& ·) (.mem (.zpX b)) s)

/-- `AND w`, opcode 2D (R150, R88). -/
def execAndAbs (w : Word) (s : State) : Ending := .next (logic (· &&& ·) (.mem (.abs w)) s)

/-- `AND w,X`, opcode 3D (R150, R89). -/
def execAndAbsX (w : Word) (s : State) : Ending := .next (logic (· &&& ·) (.mem (.absX w)) s)

/-- `AND w,Y`, opcode 39 (R150, R89). -/
def execAndAbsY (w : Word) (s : State) : Ending := .next (logic (· &&& ·) (.mem (.absY w)) s)

/-- `AND (b,X)`, opcode 21 (R150, R91). -/
def execAndIndX (b : Byte) (s : State) : Ending := .next (logic (· &&& ·) (.mem (.indX b)) s)

/-- `AND (b),Y`, opcode 31 (R150, R92). -/
def execAndIndY (b : Byte) (s : State) : Ending := .next (logic (· &&& ·) (.mem (.indY b)) s)

/-- `ORA #v`, opcode 09 (R151, R83). -/
def execOraImm (v : Byte) (s : State) : Ending := .next (logic (· ||| ·) (.imm v) s)

/-- `ORA b`, opcode 05 (R151, R84). -/
def execOraZp (b : Byte) (s : State) : Ending := .next (logic (· ||| ·) (.mem (.zp b)) s)

/-- `ORA b,X`, opcode 15 (R151, R85). -/
def execOraZpX (b : Byte) (s : State) : Ending := .next (logic (· ||| ·) (.mem (.zpX b)) s)

/-- `ORA w`, opcode 0D (R151, R88). -/
def execOraAbs (w : Word) (s : State) : Ending := .next (logic (· ||| ·) (.mem (.abs w)) s)

/-- `ORA w,X`, opcode 1D (R151, R89). -/
def execOraAbsX (w : Word) (s : State) : Ending := .next (logic (· ||| ·) (.mem (.absX w)) s)

/-- `ORA w,Y`, opcode 19 (R151, R89). -/
def execOraAbsY (w : Word) (s : State) : Ending := .next (logic (· ||| ·) (.mem (.absY w)) s)

/-- `ORA (b,X)`, opcode 01 (R151, R91). -/
def execOraIndX (b : Byte) (s : State) : Ending := .next (logic (· ||| ·) (.mem (.indX b)) s)

/-- `ORA (b),Y`, opcode 11 (R151, R92). -/
def execOraIndY (b : Byte) (s : State) : Ending := .next (logic (· ||| ·) (.mem (.indY b)) s)

/-- `EOR #v`, opcode 49 (R152, R83). -/
def execEorImm (v : Byte) (s : State) : Ending := .next (logic (· ^^^ ·) (.imm v) s)

/-- `EOR b`, opcode 45 (R152, R84). -/
def execEorZp (b : Byte) (s : State) : Ending := .next (logic (· ^^^ ·) (.mem (.zp b)) s)

/-- `EOR b,X`, opcode 55 (R152, R85). -/
def execEorZpX (b : Byte) (s : State) : Ending := .next (logic (· ^^^ ·) (.mem (.zpX b)) s)

/-- `EOR w`, opcode 4D (R152, R88). -/
def execEorAbs (w : Word) (s : State) : Ending := .next (logic (· ^^^ ·) (.mem (.abs w)) s)

/-- `EOR w,X`, opcode 5D (R152, R89). -/
def execEorAbsX (w : Word) (s : State) : Ending := .next (logic (· ^^^ ·) (.mem (.absX w)) s)

/-- `EOR w,Y`, opcode 59 (R152, R89). -/
def execEorAbsY (w : Word) (s : State) : Ending := .next (logic (· ^^^ ·) (.mem (.absY w)) s)

/-- `EOR (b,X)`, opcode 41 (R152, R91). -/
def execEorIndX (b : Byte) (s : State) : Ending := .next (logic (· ^^^ ·) (.mem (.indX b)) s)

/-- `EOR (b),Y`, opcode 51 (R152, R92). -/
def execEorIndY (b : Byte) (s : State) : Ending := .next (logic (· ^^^ ·) (.mem (.indY b)) s)

/-- `BIT b`, opcode 24 (R153, R84). -/
def execBitZp (b : Byte) (s : State) : Ending := .next (bitTest (.zp b) s)

/-- `BIT w`, opcode 2C (R153, R88). -/
def execBitAbs (w : Word) (s : State) : Ending := .next (bitTest (.abs w) s)

/-- `LDA #v`, opcode A9 (R154, R83). -/
def execLdaImm (v : Byte) (s : State) : Ending := .next (loadA (.imm v) s)

/-- `LDA b`, opcode A5 (R154, R84). -/
def execLdaZp (b : Byte) (s : State) : Ending := .next (loadA (.mem (.zp b)) s)

/-- `LDA b,X`, opcode B5 (R154, R85). -/
def execLdaZpX (b : Byte) (s : State) : Ending := .next (loadA (.mem (.zpX b)) s)

/-- `LDA w`, opcode AD (R154, R88). -/
def execLdaAbs (w : Word) (s : State) : Ending := .next (loadA (.mem (.abs w)) s)

/-- `LDA w,X`, opcode BD (R154, R89). -/
def execLdaAbsX (w : Word) (s : State) : Ending := .next (loadA (.mem (.absX w)) s)

/-- `LDA w,Y`, opcode B9 (R154, R89). -/
def execLdaAbsY (w : Word) (s : State) : Ending := .next (loadA (.mem (.absY w)) s)

/-- `LDA (b,X)`, opcode A1 (R154, R91). -/
def execLdaIndX (b : Byte) (s : State) : Ending := .next (loadA (.mem (.indX b)) s)

/-- `LDA (b),Y`, opcode B1 (R154, R92). -/
def execLdaIndY (b : Byte) (s : State) : Ending := .next (loadA (.mem (.indY b)) s)

/-- `LDX #v`, opcode A2 (R155, R83). -/
def execLdxImm (v : Byte) (s : State) : Ending := .next (loadX (.imm v) s)

/-- `LDX b`, opcode A6 (R155, R84). -/
def execLdxZp (b : Byte) (s : State) : Ending := .next (loadX (.mem (.zp b)) s)

/-- `LDX b,Y`, opcode B6 (R155, R86). -/
def execLdxZpY (b : Byte) (s : State) : Ending := .next (loadX (.mem (.zpY b)) s)

/-- `LDX w`, opcode AE (R155, R88). -/
def execLdxAbs (w : Word) (s : State) : Ending := .next (loadX (.mem (.abs w)) s)

/-- `LDX w,Y`, opcode BE (R155, R89). -/
def execLdxAbsY (w : Word) (s : State) : Ending := .next (loadX (.mem (.absY w)) s)

/-- `LDY #v`, opcode A0 (R156, R83). -/
def execLdyImm (v : Byte) (s : State) : Ending := .next (loadY (.imm v) s)

/-- `LDY b`, opcode A4 (R156, R84). -/
def execLdyZp (b : Byte) (s : State) : Ending := .next (loadY (.mem (.zp b)) s)

/-- `LDY b,X`, opcode B4 (R156, R85). -/
def execLdyZpX (b : Byte) (s : State) : Ending := .next (loadY (.mem (.zpX b)) s)

/-- `LDY w`, opcode AC (R156, R88). -/
def execLdyAbs (w : Word) (s : State) : Ending := .next (loadY (.mem (.abs w)) s)

/-- `LDY w,X`, opcode BC (R156, R89). -/
def execLdyAbsX (w : Word) (s : State) : Ending := .next (loadY (.mem (.absX w)) s)

/-- `STA b`, opcode 85 (R157, R84). -/
def execStaZp (b : Byte) (s : State) : Ending := .next (store s.a (.zp b) s)

/-- `STA b,X`, opcode 95 (R157, R85). -/
def execStaZpX (b : Byte) (s : State) : Ending := .next (store s.a (.zpX b) s)

/-- `STA w`, opcode 8D (R157, R88). -/
def execStaAbs (w : Word) (s : State) : Ending := .next (store s.a (.abs w) s)

/-- `STA w,X`, opcode 9D (R157, R89). -/
def execStaAbsX (w : Word) (s : State) : Ending := .next (store s.a (.absX w) s)

/-- `STA w,Y`, opcode 99 (R157, R89). -/
def execStaAbsY (w : Word) (s : State) : Ending := .next (store s.a (.absY w) s)

/-- `STA (b,X)`, opcode 81 (R157, R91). -/
def execStaIndX (b : Byte) (s : State) : Ending := .next (store s.a (.indX b) s)

/-- `STA (b),Y`, opcode 91 (R157, R92). -/
def execStaIndY (b : Byte) (s : State) : Ending := .next (store s.a (.indY b) s)

/-- `STX b`, opcode 86 (R158, R84). -/
def execStxZp (b : Byte) (s : State) : Ending := .next (store s.x (.zp b) s)

/-- `STX b,Y`, opcode 96 (R158, R86). -/
def execStxZpY (b : Byte) (s : State) : Ending := .next (store s.x (.zpY b) s)

/-- `STX w`, opcode 8E (R158, R88). -/
def execStxAbs (w : Word) (s : State) : Ending := .next (store s.x (.abs w) s)

/-- `STY b`, opcode 84 (R159, R84). -/
def execStyZp (b : Byte) (s : State) : Ending := .next (store s.y (.zp b) s)

/-- `STY b,X`, opcode 94 (R159, R85). -/
def execStyZpX (b : Byte) (s : State) : Ending := .next (store s.y (.zpX b) s)

/-- `STY w`, opcode 8C (R159, R88). -/
def execStyAbs (w : Word) (s : State) : Ending := .next (store s.y (.abs w) s)

end Sys2Proof.Machine
end

