-- ==== Sys2Proof/Machine/Shift.lean ====
section
/-! DEFINITION. Shifts and rotates (43_shift_rotate.md): ASL, LSR, ROL, ROR. The shared operations of the family stand first,
then one meaning for each row of the opcode table. -/

namespace Sys2Proof.Machine

/-- ASL on a byte: the result and the bit shifted out (R130). -/
def aslByte (m : Byte) (_ : Bool) : Byte × Bool := (m <<< 1, m.getLsbD 7)

/-- LSR on a byte (R131). -/
def lsrByte (m : Byte) (_ : Bool) : Byte × Bool := (m >>> 1, m.getLsbD 0)

/-- ROL on a byte and the prior carry (R132). -/
def rolByte (m : Byte) (c : Bool) : Byte × Bool := (m <<< 1 ||| flagAt c 0, m.getLsbD 7)

/-- ROR on a byte and the prior carry (R133). -/
def rorByte (m : Byte) (c : Bool) : Byte × Bool := (flagAt c 7 ||| m >>> 1, m.getLsbD 0)

/-- The common shape of R130 to R133: one read, the shift, one write, then C, Z and N. -/
def shift (f : Byte → Bool → Byte × Bool) (t : Target) (s : State) : State :=
  let (place, s1) := resolveTarget t s
  let (m, s2) := readPlace place s1
  let (res, out) := f m s.p.c
  advance (formLen t.form) (writePlace place res { s2 with p := shiftFlags res out s.p })

/-- `ASL A`, opcode 0A (R130, R82). -/
def execAslA (s : State) : Ending := .next (shift aslByte .acc s)

/-- `ASL b`, opcode 06 (R130, R84). -/
def execAslZp (b : Byte) (s : State) : Ending := .next (shift aslByte (.mem (.zp b)) s)

/-- `ASL b,X`, opcode 16 (R130, R85). -/
def execAslZpX (b : Byte) (s : State) : Ending := .next (shift aslByte (.mem (.zpX b)) s)

/-- `ASL w`, opcode 0E (R130, R88). -/
def execAslAbs (w : Word) (s : State) : Ending := .next (shift aslByte (.mem (.abs w)) s)

/-- `ASL w,X`, opcode 1E (R130, R89). -/
def execAslAbsX (w : Word) (s : State) : Ending := .next (shift aslByte (.mem (.absX w)) s)

/-- `LSR A`, opcode 4A (R131, R82). -/
def execLsrA (s : State) : Ending := .next (shift lsrByte .acc s)

/-- `LSR b`, opcode 46 (R131, R84). -/
def execLsrZp (b : Byte) (s : State) : Ending := .next (shift lsrByte (.mem (.zp b)) s)

/-- `LSR b,X`, opcode 56 (R131, R85). -/
def execLsrZpX (b : Byte) (s : State) : Ending := .next (shift lsrByte (.mem (.zpX b)) s)

/-- `LSR w`, opcode 4E (R131, R88). -/
def execLsrAbs (w : Word) (s : State) : Ending := .next (shift lsrByte (.mem (.abs w)) s)

/-- `LSR w,X`, opcode 5E (R131, R89). -/
def execLsrAbsX (w : Word) (s : State) : Ending := .next (shift lsrByte (.mem (.absX w)) s)

/-- `ROL A`, opcode 2A (R132, R82). -/
def execRolA (s : State) : Ending := .next (shift rolByte .acc s)

/-- `ROL b`, opcode 26 (R132, R84). -/
def execRolZp (b : Byte) (s : State) : Ending := .next (shift rolByte (.mem (.zp b)) s)

/-- `ROL b,X`, opcode 36 (R132, R85). -/
def execRolZpX (b : Byte) (s : State) : Ending := .next (shift rolByte (.mem (.zpX b)) s)

/-- `ROL w`, opcode 2E (R132, R88). -/
def execRolAbs (w : Word) (s : State) : Ending := .next (shift rolByte (.mem (.abs w)) s)

/-- `ROL w,X`, opcode 3E (R132, R89). -/
def execRolAbsX (w : Word) (s : State) : Ending := .next (shift rolByte (.mem (.absX w)) s)

/-- `ROR A`, opcode 6A (R133, R82). -/
def execRorA (s : State) : Ending := .next (shift rorByte .acc s)

/-- `ROR b`, opcode 66 (R133, R84). -/
def execRorZp (b : Byte) (s : State) : Ending := .next (shift rorByte (.mem (.zp b)) s)

/-- `ROR b,X`, opcode 76 (R133, R85). -/
def execRorZpX (b : Byte) (s : State) : Ending := .next (shift rorByte (.mem (.zpX b)) s)

/-- `ROR w`, opcode 6E (R133, R88). -/
def execRorAbs (w : Word) (s : State) : Ending := .next (shift rorByte (.mem (.abs w)) s)

/-- `ROR w,X`, opcode 7E (R133, R89). -/
def execRorAbsX (w : Word) (s : State) : Ending := .next (shift rorByte (.mem (.absX w)) s)

end Sys2Proof.Machine
end

