-- ==== Sys2Proof/Machine/Stack.lean ====
section
/-! DEFINITION. Stack instructions and register transfers (47_stack_transfer.md). All are Implicit. The shared operations of the family stand first,
then one meaning for each row of the opcode table. -/

namespace Sys2Proof.Machine

/-- PLA: pull A, then Z and N (R192). -/
def pullA (s : State) : State :=
  let (v, s1) := pull s
  advance 0 { s1 with a := v, p := setZN v s.p }

/-- PLP: pull the status byte; bits 5 and 4 are discarded (R193). -/
def pullStatus (s : State) : State :=
  let (v, s1) := pull s
  advance 0 { s1 with p := unpackP v }

/-- `PHA`, opcode 48 (R190, R81). -/
def execPha (s : State) : Ending := .next (advance 0 (push s.a s))

/-- `PHP`, opcode 08 (R191, R81). -/
def execPhp (s : State) : Ending := .next (advance 0 (push (packP true s.p) s))

/-- `PLA`, opcode 68 (R192, R81). -/
def execPla (s : State) : Ending := .next (pullA s)

/-- `PLP`, opcode 28 (R193, R81). -/
def execPlp (s : State) : Ending := .next (pullStatus s)

/-- `TAX`, opcode AA (R194, R81). -/
def execTax (s : State) : Ending := .next (advance 0 { s with x := s.a, p := setZN s.a s.p })

/-- `TAY`, opcode A8 (R195, R81). -/
def execTay (s : State) : Ending := .next (advance 0 { s with y := s.a, p := setZN s.a s.p })

/-- `TXA`, opcode 8A (R196, R81). -/
def execTxa (s : State) : Ending := .next (advance 0 { s with a := s.x, p := setZN s.x s.p })

/-- `TYA`, opcode 98 (R197, R81). -/
def execTya (s : State) : Ending := .next (advance 0 { s with a := s.y, p := setZN s.y s.p })

/-- `TSX`, opcode BA (R198, R81). -/
def execTsx (s : State) : Ending := .next (advance 0 { s with x := s.sp, p := setZN s.sp s.p })

/-- `TXS`, opcode 9A (R199, R81). -/
def execTxs (s : State) : Ending := .next (advance 0 { s with sp := s.x })

end Sys2Proof.Machine
end

