-- ==== Sys2Proof/Machine/System.lean ====
section
/-! DEFINITION. BRK, RTI, the flag instructions, NOP (48_system_flags.md), and the Invalid opcodes (R239, R240). The shared operations of the family stand first,
then one meaning for each row of the opcode table. -/

namespace Sys2Proof.Machine

/-- `BRK`, opcode 00 (R210, R81). -/
def execBrk (s : State) : Ending := .next (enterInterrupt (s.pc + 2) true irqVector s)

/-- `RTI`, opcode 40 (R211, R81). -/
def execRti (s : State) : Ending := .next (returnFromInterrupt s)

/-- `CLC`, opcode 18 (R212, R81). -/
def execClc (s : State) : Ending := .next (advance 0 { s with p := { s.p with c := false } })

/-- `SEC`, opcode 38 (R213, R81). -/
def execSec (s : State) : Ending := .next (advance 0 { s with p := { s.p with c := true } })

/-- `CLI`, opcode 58 (R214, R81). -/
def execCli (s : State) : Ending := .next (advance 0 { s with p := { s.p with i := false } })

/-- `SEI`, opcode 78 (R215, R81). -/
def execSei (s : State) : Ending := .next (advance 0 { s with p := { s.p with i := true } })

/-- `CLV`, opcode B8 (R216, R81). -/
def execClv (s : State) : Ending := .next (advance 0 { s with p := { s.p with v := false } })

/-- `CLD`, opcode D8 (R217, R81). -/
def execCld (s : State) : Ending := .next (advance 0 { s with p := { s.p with d := false } })

/-- `SED`, opcode F8 (R218, R81). -/
def execSed (s : State) : Ending := .next (advance 0 { s with p := { s.p with d := true } })

/-- `NOP`, opcode EA (R219, R81). -/
def execNop (s : State) : Ending := .next (advance 0 s)

/-- An Invalid opcode: IllegalOpcode is taken as the machine's policy says (R239, R240). No operand byte is read, nothing is
pushed or vectored. -/
def execInvalid (op : Byte) (s : State) : Ending := .next (illegalOpcode op s)

end Sys2Proof.Machine
end

