-- ==== Sys2Proof/Machine/Fetch.lean ====
section
/-! DEFINITION. Fetching one instruction through the bus (R100, R102, R94). -/

namespace Sys2Proof.Machine

/-- Reads the opcode at PC, looks it up, and reads its operand bytes at PC + 1 and PC + 2, all addresses modulo 65536; PC
does not move (R23, R61, R102, R106). -/
def fetch (s : State) : Instr × State :=
  let (op, s1) := busRead s.pc s
  match lookup op with
  | .f1 i => (i, s1)
  | .f2 build =>
    let (b, s2) := busRead (s.pc + 1) s1
    (build b, s2)
  | .f3 build =>
    let (w, s2) := readPair (s.pc + 1) (s.pc + 2) s1
    (build w, s2)

end Sys2Proof.Machine
end

