-- ==== Sys2Proof/Machine/Timing.lean ====
section
/-! DEFINITION. The cycle table (R283) and the count a completed instruction's step returns (R110). No rule reads these
numbers except that return value. -/

namespace Sys2Proof.Machine

/-- `CYCLES[op]`, the base counts of R283 in opcode order, one high nibble a line; 0 where there is no documented
instruction and so no count. -/
def cycleTable : List Nat :=
  [7, 6, 0, 0, 0, 3, 5, 0, 3, 2, 2, 0, 0, 4, 6, 0]
  ++ [2, 5, 0, 0, 0, 4, 6, 0, 2, 4, 0, 0, 0, 4, 7, 0]
  ++ [6, 6, 0, 0, 3, 3, 5, 0, 4, 2, 2, 0, 4, 4, 6, 0]
  ++ [2, 5, 0, 0, 0, 4, 6, 0, 2, 4, 0, 0, 0, 4, 7, 0]
  ++ [6, 6, 0, 0, 0, 3, 5, 0, 3, 2, 2, 0, 3, 4, 6, 0]
  ++ [2, 5, 0, 0, 0, 4, 6, 0, 2, 4, 0, 0, 0, 4, 7, 0]
  ++ [6, 6, 0, 0, 0, 3, 5, 0, 4, 2, 2, 0, 5, 4, 6, 0]
  ++ [2, 5, 0, 0, 0, 4, 6, 0, 2, 4, 0, 0, 0, 4, 7, 0]
  ++ [0, 6, 0, 0, 3, 3, 3, 0, 2, 0, 2, 0, 4, 4, 4, 0]
  ++ [2, 6, 0, 0, 4, 4, 4, 0, 2, 5, 2, 0, 0, 5, 0, 0]
  ++ [2, 6, 2, 0, 3, 3, 3, 0, 2, 2, 2, 0, 4, 4, 4, 0]
  ++ [2, 5, 0, 0, 4, 4, 4, 0, 2, 4, 2, 0, 4, 4, 4, 0]
  ++ [2, 6, 0, 0, 3, 3, 5, 0, 2, 2, 2, 0, 4, 4, 6, 0]
  ++ [2, 5, 0, 0, 0, 4, 6, 0, 2, 4, 0, 0, 0, 4, 7, 0]
  ++ [2, 6, 0, 0, 3, 3, 5, 0, 2, 2, 2, 0, 4, 4, 6, 0]
  ++ [2, 5, 0, 0, 0, 4, 6, 0, 2, 4, 0, 0, 0, 4, 7, 0]

/-- The base count of an opcode (R283). -/
def cycles (op : Byte) : Nat := cycleTable.getD op.toNat 0

/-- The end of an instruction's step: `return Ok(CYCLES[op])` (R100, R110). An Invalid opcode has set its own result
already (R240). -/
def retire (i : Instr) (s : State) : State :=
  match i.kind with
  | .invalid => s
  | _ => { s with result := some (.ok (cycles (opcode i))) }

end Sys2Proof.Machine
end

