-- ==== Sys2Proof/Machine/Step.lean ====
section
/-! DEFINITION. `Step()` (R100): the halted state, then the interrupt sampling, then one instruction. -/

namespace Sys2Proof.Machine

/-- One instruction: fetch and decode, execute, and return its count (R100, R110). -/
def runInstruction (s : State) : Host.Outcome State Fault Refusal :=
  let (i, s1) := fetch s
  match exec i s1 with
  | .next s2 => .next (retire i s2)
  | .fault r => .fault r
  | .refused r => .refused r

/-- `Step()` (R100). A halted block returns its fault again, with no bus access and no change (R113); else a pending
interrupt is taken before any fetch (R231); else one instruction runs. -/
def step (s : State) : Host.Outcome State Fault Refusal :=
  if s.halted then .fault (.illegalOpcode s.pc s.haltOpcode)
  else if takesInterrupt s then .next (interruptSequence (beginEvents s))
  else runInstruction (beginEvents s)

/-- `s` with the instruction whose bits are `w` (numbered as spec/opcode_table.json numbers them) stored at PC, PC + 1 and
PC + 2, so that the very next step fetches and runs it: not halted, no interrupt that would be taken first, and none of the
three addresses intercepted (an intercepted byte would not be read from the image). From `State.reset` only memory
changes. -/
def State.withFetchWord (s : State) (nbits w : Nat) : State :=
  match tableBytes nbits w with
  | [b0, b1, b2] =>
    { s with
      mem := ((s.mem.write s.pc.toNat b0).write (s.pc + 1).toNat b1).write (s.pc + 2).toNat b2
      halted := false
      nmiPending := false
      irqPending := s.irqPending && s.p.i
      cfg := { s.cfg with
        ioMap := s.cfg.ioMap.filter fun r => !([s.pc, s.pc + 1, s.pc + 2].any (rangeHolds r)) } }
  | _ => s

end Sys2Proof.Machine
end

