-- ==== Sys2Proof/Machine/HostInterface.lean ====
section
/-! DEFINITION. What the host may do between steps (R11, R28, R56, R101, R270): raise an interrupt line, reset the block,
change memory. -/

namespace Sys2Proof.Machine

/-- `RaiseNMI()`: the latch is one bit, so a second raise changes nothing (R28). -/
def raiseNMI (s : State) : State := { s with nmiPending := true }

/-- `RaiseIRQ()` (R28). -/
def raiseIRQ (s : State) : State := { s with irqPending := true }

/-- The host sets one cell of the image, as the loader does and as other agents may between steps (R56, R278). It is no bus
access of the block, so no event is recorded. -/
def hostStore (a : Word) (v : Byte) (s : State) : State := { s with mem := s.mem.write a.toNat v }

/-- `Reset()`, from any state (R270 to R276): registers, flags, latches and halt marks take their reset values, then PC is
loaded from the RESET vector through the bus. Memory is not changed, and there is no returned count. -/
def hostReset (s : State) : State :=
  let s1 := { beginEvents s with
    nmiPending := false, irqPending := false, halted := false, haltOpcode := 0x00
    a := 0x00, x := 0x00, y := 0x00
    sp := s.cfg.resetSp
    p := ⟨false, false, true, false, false, false⟩
    result := none }
  let (target, s2) := read16 resetVector s1
  { s2 with pc := target }

end Sys2Proof.Machine
end

