-- ==== Sys2Proof/Safety.lean ====
section
/-! DEFINITION. What the claims call a good state and a safe step, and the two shapes of a flag update they name. -/

namespace Sys2Proof.Machine

/-- A halted block is halted for the reason R240 gives: the policy is Halt, the opcode kept is one of the 105 Invalid
bytes, and the last result is the fault about the opcode at PC (R29, R113). -/
def State.HaltExplained (s : State) : Prop :=
  s.halted = true →
    s.cfg.illegalPolicy = .halt ∧ invalidOpcodes.contains s.haltOpcode = true
      ∧ s.result = some (.illegalOpcode s.pc s.haltOpcode)

/-- The invariant of the machine: the memory image is in its canonical form, and a halt is explained. -/
def State.Inv (s : State) : Prop := s.mem.wf = true ∧ s.HaltExplained

/-- A step that does not stop. -/
def State.StepsOn (s : State) : Prop := ∃ t, step s = .next t

/-- The events of bus reads at the listed addresses, one after the other: each read's value is what the bus answers
(`busValue`) when the event list already holds the reads before it (R43, R44). -/
def busReads : List Word → State → List BusEvent
  | [], _ => []
  | a :: rest, s =>
    let e : BusEvent := .read a (busValue a s)
    e :: busReads rest { s with events := s.events ++ [e] }

/-- The addresses of an instruction's own bytes, from PC upward modulo 65536 (R61). -/
def fetchAddrs (i : Instr) (s : State) : List Word :=
  (List.range (1 + formLen i.form)).map fun k => s.pc + BitVec.ofNat 16 k

/-- The flags with Z and N as R108 gives them for a result, said in numbers: Z when it is 0, N when it is 128 or more. -/
def Flags.withZN (p : Flags) (res : Byte) : Flags :=
  { p with z := decide (res.toNat = 0), n := decide (128 ≤ res.toNat) }

/-- Two next states `t` and `t'` that differ in D and in ONE pushed status byte alone: the byte at `slot`, packed from `p` in
the one and from `p'` in the other, and the event of that push. -/
def SameButPushedStatus (slot : Word) (pushSource : Bool) (p p' : Flags) (t t' : State) : Prop :=
  { t' with p := { t'.p with d := false }, mem := [], events := [] }
      = { t with p := { t.p with d := false }, mem := [], events := [] }
    ∧ (∀ a : Word, a ≠ slot → t'.byteAt a = t.byteAt a)
    ∧ ∃ before after : List BusEvent,
        t.events = before ++ [.write slot (packP pushSource p)] ++ after
          ∧ t'.events = before ++ [.write slot (packP pushSource p')] ++ after

/-- The address of the next instruction (R106). -/
def nextPc (i : Instr) (s : State) : Word := s.pc + 1 + BitVec.ofNat 16 (formLen i.form)

end Sys2Proof.Machine
end

