-- ==== Sys2Proof/Certificates/Slice0/Obligations.lean ====
section
/-! DEFINITION. The statements for the provers, in the order of the spec's files: reset, encoding, the step, whole-machine
rules, the bus and the resolver, the instructions family by family, interrupts and errors. An instruction is named by
`i.view = (kind, mode)`, which covers every row of that kind and mode; a result statement concludes with the next state
written out in full, so whatever it does not name is unchanged. Where a statement says what the bus answers at an intercepted
address (`busValue`, `Config.ioRead`), what the history holds is the model's reading, notes/assumptions/3.md. Everywhere, an
instruction makes exactly the accesses its rule lists (D10 of 92_eei_decisions.md), its operand bytes, an immediate one among
them, having been read by the fetch (notes/assumptions/8.md), and PC, addresses and SP wrap (D15, D19 there). -/

open Sys2Proof Sys2Proof.Machine

/-! ### Reset -/

/-- R270 to R274: what `Reset()` leaves in the registers, the flags, the latches and the halt marks, from any state. The
values are the spec's own choice (92_eei_decisions.md D7, D8, D9), not the source's. -/
def Obligations.ResetSetsRegistersAndLatches : Prop :=
  ∀ s : State,
    (hostReset s).a = 0x00 ∧ (hostReset s).x = 0x00 ∧ (hostReset s).y = 0x00 ∧ (hostReset s).sp = s.cfg.resetSp
      ∧ packP true (hostReset s).p = 0x34
      ∧ (hostReset s).nmiPending = false ∧ (hostReset s).irqPending = false
      ∧ (hostReset s).halted = false ∧ (hostReset s).haltOpcode = 0x00
      ∧ (hostReset s).cfg = s.cfg

/-- PC is loaded from the RESET vector through the bus (so an intercepted vector byte is the host's) and memory is not
changed (R275, R276); there are exactly two reads (R270's decision, D25 of 92_eei_decisions.md, notes/assumptions/6.md); and
the first step after reset fetches at that PC, finding no halt and no interrupt pending (R274's decisions, D8 and D9 there).
What the history given to `Config.ioRead` holds is the model's reading, notes/assumptions/3.md. -/
def Obligations.ResetLoadsPcFromVector : Prop :=
  ∀ s : State, ∃ lo hi : Byte,
    (hostReset s).events = [.read 0xFFFC lo, .read 0xFFFD hi]
      ∧ (hostReset s).pc = wordOf lo hi
      ∧ lo = (if intercepted 0xFFFC s then Config.ioRead 0xFFFC (history s) else s.byteAt 0xFFFC)
      ∧ hi = (if intercepted 0xFFFD s then Config.ioRead 0xFFFD (history s ++ [.read 0xFFFC lo]) else s.byteAt 0xFFFD)
      ∧ (hostReset s).mem = s.mem
      ∧ step (hostReset s) = runInstruction (beginEvents (hostReset s))

/-- R277: the launch state is `Reset()` applied to a loaded image: for the image that lists nothing, the default parameters
and an empty history, whatever the registers held, that is `State.reset`. (That an unlisted cell reads 0x00 is the model's
choice, notes/assumptions/1.md.) That the launch state is a reset image is D21 of 92_eei_decisions.md. The values of
`State.reset` are D7, D8 and D9 there, its two reads D25. -/
def Obligations.ResetStateIsResetOfBlankImage : Prop :=
  ∀ s : State, s.mem = [] → s.cfg = Config.default → s.past = [] → s.events = [] → hostReset s = State.reset

/-- The invariant holds at reset: at `State.reset`, and after `Reset()` of any state whose image is in canonical form (the
canonical form is the model's own). (R274, R277.) That reset clears the halt is D8 of 92_eei_decisions.md. -/
def Obligations.ResetEstablishesInvariant : Prop :=
  State.reset.Inv ∧ ∀ s : State, s.mem.wf = true → (hostReset s).Inv

/-- THE INVARIANT: every step from a good state leads to a good state. The image keeps its canonical form (the model's own
representation), and a halt is always the one R240 describes (R29, R113, R239). The halt is D8 of 92_eei_decisions.md; that
the halting step is a next state is the model's choice (DESIGN CHOICE, notes/assumptions/4.md). -/
def Obligations.StepKeepsInvariant : Prop :=
  ∀ s t : State, s.Inv → step s = .next t → t.Inv

/-! ### Encoding -/

/-- DECODE AFTER ENCODE: every well-formed instruction, with every operand value, is read back from its bytes, whatever
follows them (R60, R61, R63). The opcode map is general knowledge in the spec (PRESUMED, notes/assumptions/15.md). -/
def Obligations.DecodeAfterEncode : Prop :=
  ∀ (i : Instr) (rest : List Byte), WellFormed i = true → decode (encode i ++ rest) = .ok (i, rest)

/-- ENCODE AFTER DECODE: what the decoder reads is well formed and its bytes are exactly the bytes it took, so each byte
string has one meaning (R61, R62, R65). The opcode map is general knowledge in the spec (PRESUMED, notes/assumptions/15.md).
-/
def Obligations.EncodeAfterDecode : Prop :=
  ∀ (bs : List Byte) (i : Instr) (rest : List Byte),
    decode bs = .ok (i, rest) → WellFormed i = true ∧ encode i ++ rest = bs

/-- R62, R64, R66: every opcode byte has an entry; exactly the 105 bytes of R64 give `(Invalid, Implicit)`; an instruction
takes 1 + LEN bytes. Which bytes are documented is general knowledge in the spec (PRESUMED, notes/assumptions/15.md). -/
def Obligations.EveryOpcodeByteHasAnEntry : Prop :=
  ∀ op b1 b2 : Byte, ∃ (i : Instr) (rest : List Byte),
    decode [op, b1, b2] = .ok (i, rest)
      ∧ rest.length = 2 - formLen i.form
      ∧ (invalidOpcodes.contains op = true → i = .invalid op ∧ i.view = (.invalid, .implied))
      ∧ (invalidOpcodes.contains op = false → i.kind ≠ .invalid)

/-- A few words of R63 and R68, bits written out, decode to the instruction they stand for. (The opcode map is general
knowledge in the spec, PRESUMED, notes/assumptions/15.md.) -/
def Obligations.SampleWordsDecode : Prop :=
  decodeTableWord 16 0b01010000_01101001 = some (.adcImm 0x50)
    ∧ decodeTableWord 8 0b00001010 = some .aslA
    ∧ decodeTableWord 24 0b00000011_00000000_11101110 = some (.incAbs 0x0300)
    ∧ decodeTableWord 16 0b01000000_10110001 = some (.ldaIndY 0x40)
    ∧ decodeTableWord 24 0b00010010_11111111_01101100 = some (.jmpInd 0x12FF)
    ∧ decodeTableWord 8 0b10011010 = some .txs
    ∧ decodeTableWord 8 0b01000000 = some .rti
    ∧ decodeTableWord 8 0b00000010 = some (.invalid 0x02)

/-! ### The step -/

/-- A STEP RUNS THE DECODED INSTRUCTION (R100): when the block is not halted and takes no interrupt, and the bytes at PC
(not intercepted) decode to `i`, the step is `exec i` at the state whose event list holds the reads of exactly `i`'s bytes
(R53, R94), and then the return of its count (for an Invalid byte there is none: `exec` has set the result, and the halting
step is a next state, DESIGN CHOICE, notes/assumptions/4.md). PC has not moved before `exec` (R23). That these are the only
reads is D10 of 92_eei_decisions.md. That the operand bytes are read by the fetch is the model's reading (DEDUCED,
notes/assumptions/8.md). The addresses wrap modulo 65536 (D15 there); how a step is cut into the fetch, `exec` and `retire`
is the model's reading (DEDUCED, notes/assumptions/17.md). -/
def Obligations.StepRunsDecodedInstruction : Prop :=
  ∀ (s : State) (i : Instr) (rest : List Byte),
    s.halted = false → takesInterrupt s = false →
    (∀ k < 1 + formLen i.form, intercepted (s.pc + BitVec.ofNat 16 k) s = false) →
    decode [s.byteAt s.pc, s.byteAt (s.pc + 1), s.byteAt (s.pc + 2)] = .ok (i, rest) →
    step s =
      match exec i { s with
          past := s.past ++ s.events
          events := [BusEvent.read s.pc (s.byteAt s.pc), .read (s.pc + 1) (s.byteAt (s.pc + 1)),
            .read (s.pc + 2) (s.byteAt (s.pc + 2))].take (1 + formLen i.form) } with
      | .next t => .next (retire i t)
      | .fault r => .fault r
      | .refused r => .refused r

/-- R61, R102 with R43 and R44, for every state, intercepted addresses included: the fetch changes nothing but the event
list, to which it adds one read for each byte of the instruction, at consecutive addresses from PC modulo 65536, each
answered by the bus with the earlier reads in the event list (`busReads`); and the instruction is the decoding of the very
bytes that were answered. What the history of an intercepted read holds, and that the fetch is what reads the operand bytes,
are the model's reading (DEDUCED, notes/assumptions/3.md and notes/assumptions/8.md). The wrap, and that no other read is
made, are D15 and D10 of 92_eei_decisions.md. -/
def Obligations.FetchDecodesTheBytesItReads : Prop :=
  ∀ s : State,
    let i := (fetch s).1
    let evs := busReads (fetchAddrs i s) s
    (fetch s).2 = { s with events := s.events ++ evs }
      ∧ decode (evs.map BusEvent.value) = .ok (i, [])
      ∧ WellFormed i = true

/-- A STEP RUNS THE INSTRUCTION THE BUS ANSWERS (R61, R100, R102 with R43 and R44): `StepRunsDecodedInstruction` for every
state, bytes at intercepted addresses included. When the block is not halted and takes no interrupt, the bytes the bus
answers from PC on decode to an instruction `i` (the first byte settles how many are read), and the step is `exec i` at the
state whose event list holds exactly those reads, and then the return of its count (for an Invalid byte there is none:
`exec` has set the result, and the halting step is a next state, DESIGN CHOICE, notes/assumptions/4.md). That no other read
is made is D10 of 92_eei_decisions.md. What the history of an intercepted read holds, and that the fetch is what reads the
operand bytes, are the model's reading (DEDUCED, notes/assumptions/3.md and notes/assumptions/8.md). The addresses wrap
modulo 65536 (D15 there); how a step is cut into the fetch, `exec` and `retire` is the model's reading (DEDUCED,
notes/assumptions/17.md). -/
def Obligations.StepRunsWhatTheBusAnswers : Prop :=
  ∀ s : State, s.halted = false → takesInterrupt s = false →
    ∃ i : Instr,
      let evs := busReads (fetchAddrs i s) (beginEvents s)
      decode (evs.map BusEvent.value) = .ok (i, [])
        ∧ step s =
          match exec i { s with past := s.past ++ s.events, events := evs } with
          | .next t => .next (retire i t)
          | .fault r => .fault r
          | .refused r => .refused r

/-- R112, R113, R242: a step ends in the model's fault outcome in the halted state alone, and there it returns the fault
about the opcode that halted the block, whatever is pending; every other state, whatever its bytes, answers a next state.
That includes the step that fetches an Invalid byte under Halt: by R239 and R240 it returns Fault, and it is a next state,
with that fault as its result, by the model's own choice (DESIGN CHOICE, notes/assumptions/4.md). The halted state is D8 of
92_eei_decisions.md. What the fault carries is D27 there. -/
def Obligations.StepStopsOnlyWhenHalted : Prop :=
  ∀ s : State, (s.StepsOn ↔ s.halted = false)
    ∧ (s.halted = true → step s = .fault (.illegalOpcode s.pc s.haltOpcode))

/-- R110, R283, R284: the step of a documented instruction returns its base count, an interrupt step returns 7, and every
base count lies between 2 and 7. The counts are D11 of 92_eei_decisions.md. They are natural numbers without penalties
(DESIGN CHOICE, notes/assumptions/16.md). -/
def Obligations.StepReturnsCycleCount : Prop :=
  (∀ s t : State, step s = .next t → takesInterrupt s = true → t.result = some (.ok 7))
    ∧ (∀ s t : State, step s = .next t → takesInterrupt s = false →
        (fetch (beginEvents s)).1.kind ≠ .invalid →
        t.result = some (.ok (cycles (opcode (fetch (beginEvents s)).1))))
    ∧ (∀ i : Instr, i.kind ≠ .invalid → 2 ≤ cycles (opcode i) ∧ cycles (opcode i) ≤ 7)

/-- The interface's `withFetchWord` (the model's own): the very next step (R100) runs the instruction that the word decodes
to, whatever the state was, and answers a next state: `exec`'s with the count returned, or, for an Invalid byte, `exec`'s
own. That the step that halts on an Invalid byte, which by R239 and R240 returns Fault, is a next state is the model's
choice (DESIGN CHOICE, notes/assumptions/4.md); how a program comes to run is notes/assumptions/7.md; how a step is cut into
the fetch, `exec` and `retire` is the model's reading (DEDUCED, notes/assumptions/17.md). -/
def Obligations.WithFetchWordIsRunNext : Prop :=
  ∀ (s : State) (nbits w : Nat) (i : Instr), s.mem.wf = true → decodeTableWord nbits w = some i →
    ∃ (t u : State), exec i t = .next u ∧ step (s.withFetchWord nbits w) = .next (retire i u)
      ∧ t.pc = s.pc ∧ t.a = s.a ∧ t.x = s.x ∧ t.y = s.y ∧ t.sp = s.sp ∧ t.p = s.p

/-! ### Rules about the whole machine -/

/-- R26: each flag changes only in an instruction the rule lists as its writer; where the source is silent the list is
general knowledge in the spec (PRESUMED, notes/assumptions/15.md). (R109.) That BRK leaves D alone is D22 of
92_eei_decisions.md. -/
def Obligations.FlagsChangeOnlyByTheirWriters : Prop :=
  ∀ (i : Instr) (s t : State), exec i s = .next t →
    (t.p.c ≠ s.p.c → i.kind ∈ [Kind.adc, .sbc, .cmp, .cpx, .cpy, .asl, .lsr, .rol, .ror, .clc, .sec, .plp, .rti])
      ∧ (t.p.z ≠ s.p.z ∨ t.p.n ≠ s.p.n →
          i.kind ∈ [Kind.adc, .sbc, .cmp, .cpx, .cpy, .asl, .lsr, .rol, .ror, .inc, .dec, .inx, .iny, .dex, .dey, .and,
            .ora, .eor, .bit, .lda, .ldx, .ldy, .pla, .tax, .tay, .txa, .tya, .tsx, .plp, .rti])
      ∧ (t.p.i ≠ s.p.i → i.kind ∈ [Kind.sei, .cli, .plp, .rti, .brk])
      ∧ (t.p.d ≠ s.p.d → i.kind ∈ [Kind.sed, .cld, .plp, .rti])
      ∧ (t.p.v ≠ s.p.v → i.kind ∈ [Kind.adc, .sbc, .bit, .clv, .plp, .rti])

/-- R20 to R22, R109: each register changes only in an instruction the rules list as its writer. -/
def Obligations.RegistersChangeOnlyByTheirWriters : Prop :=
  ∀ (i : Instr) (s t : State), exec i s = .next t →
    (t.a ≠ s.a → i.kind ∈ [Kind.adc, .sbc, .and, .ora, .eor, .lda, .pla, .txa, .tya]
        ∨ i.form = .acc ∧ i.kind ∈ [Kind.asl, .lsr, .rol, .ror])
      ∧ (t.x ≠ s.x → i.kind ∈ [Kind.ldx, .inx, .dex, .tax, .tsx])
      ∧ (t.y ≠ s.y → i.kind ∈ [Kind.ldy, .iny, .dey, .tay])
      ∧ (t.sp ≠ s.sp → i.kind ∈ [Kind.txs, .pha, .php, .pla, .plp, .jsr, .rts, .brk, .rti])

/-- FRAME OF MEMORY, for every instruction: a byte changes only at the effective address of a store or read-modify-write
instruction, or at a slot the instruction pushes to (R40, R49, R53). That there are no dummy writes is D10 of
92_eei_decisions.md. The stores are general knowledge in the spec (PRESUMED, notes/assumptions/15.md). -/
def Obligations.MemoryChangesOnlyWhereStored : Prop :=
  ∀ (i : Instr) (s t : State) (a : Word), exec i s = .next t → t.byteAt a ≠ s.byteAt a →
    (∃ m : MemMode, i.form = .mem m ∧ a = effectiveAddress m s
        ∧ i.kind ∈ [Kind.sta, .stx, .sty, .inc, .dec, .asl, .lsr, .rol, .ror])
      ∨ (i.kind ∈ [Kind.pha, .php] ∧ a = stackAddr s.sp)
      ∨ (i.kind = .jsr ∧ a ∈ [stackAddr s.sp, stackAddr (s.sp - 1)])
      ∨ (i.kind = .brk ∧ a ∈ [stackAddr s.sp, stackAddr (s.sp - 1), stackAddr (s.sp - 2)])

/-- FRAME OF EVERYTHING ELSE, for every instruction (R28, R29, R109): no instruction touches the latches, the parameters or
the past history; it only adds to the event list; and none but an Invalid opcode touches the halt marks or the result. The
latches and the halt are D9 and D8 of 92_eei_decisions.md; the past history is the model's own (notes/assumptions/3.md), and
so is that the result is returned after `exec` (notes/assumptions/17.md). -/
def Obligations.InstructionsLeaveLatchesAndHaltMarks : Prop :=
  ∀ (i : Instr) (s t : State), exec i s = .next t →
    t.nmiPending = s.nmiPending ∧ t.irqPending = s.irqPending ∧ t.cfg = s.cfg ∧ t.past = s.past
      ∧ (∃ evs : List BusEvent, t.events = s.events ++ evs)
      ∧ (i.kind ≠ .invalid → t.halted = s.halted ∧ t.haltOpcode = s.haltOpcode ∧ t.result = s.result)

/-- R125, R26: no instruction but PHP and BRK reads the Decimal flag. Every other one, ADC and SBC among them, gives the same
next state from two states that differ in D alone, up to D itself. (PHP, BRK and interrupt entry, which is no instruction,
push D: the next statement.) -/
def Obligations.NoInstructionButPhpAndBrkReadsDecimal : Prop :=
  ∀ (i : Instr) (s t : State) (d : Bool), i.kind ∉ [Kind.php, .brk] → exec i s = .next t →
    ∃ t' : State, exec i { s with p := { s.p with d := d } } = .next t'
      ∧ { t' with p := { t'.p with d := false } } = { t with p := { t.p with d := false } }

/-- R26, R191, R210, R233: in PHP, BRK and a step that takes an interrupt, the Decimal flag goes into bit 3 of the pushed
status byte and nowhere else: from two states that differ in D alone the next states agree but for D and that byte. (Bit 3,
the bits 5 and 4 beside it, and that entry keeps D, are D6, D5 and D22 of 92_eei_decisions.md. The vector is plain memory
here: an intercepted one is answered from the history, which holds the pushed byte, notes/assumptions/3.md.) That an NMI
goes first is D9 there, the event list D10. -/
def Obligations.DecimalFlagReachesThePushedStatusAlone : Prop :=
  ∀ (s : State) (d : Bool),
    let p' : Flags := { s.p with d := d }
    let vec : Word := if s.nmiPending then 0xFFFA else 0xFFFE
    (∀ b : Bool, packP b p' &&& 0xF7 = packP b s.p &&& 0xF7)
      ∧ (∃ t t' : State, exec .php s = .next t ∧ exec .php { s with p := p' } = .next t'
          ∧ SameButPushedStatus (stackAddr s.sp) true s.p p' t t')
      ∧ (intercepted 0xFFFE s = false → intercepted 0xFFFF s = false →
          ∃ t t' : State, exec .brk s = .next t ∧ exec .brk { s with p := p' } = .next t'
            ∧ SameButPushedStatus (stackAddr (s.sp - 2)) true s.p p' t t')
      ∧ (s.halted = false → takesInterrupt s = true → intercepted vec s = false → intercepted (vec + 1) s = false →
          ∃ t t' : State, step s = .next t ∧ step { s with p := p' } = .next t'
            ∧ SameButPushedStatus (stackAddr (s.sp - 2)) false s.p p' t t')

/-! ### The bus, the stack page and the packed status -/

/-- R43, R44, R54, R57: a write outside `IO_MAP` is what the next read there answers, and no other cell changes; a read of
an intercepted address is the host's draw; each access is one event; a read changes nothing else, and a write nothing else
but the image. That a write to an intercepted address leaves the image cell as it was is the model's reading (DEDUCED,
notes/assumptions/9.md; D13 of 92_eei_decisions.md calls the cell undefined for the block), and so is what the history of
the draw holds (DEDUCED, notes/assumptions/3.md). The event list is D10 of 92_eei_decisions.md. -/
def Obligations.BusReadsLastWrite : Prop :=
  ∀ (a : Word) (v : Byte) (s : State),
    (intercepted a s = false → s.mem.wf = true → (busRead a (busWrite a v s)).1 = v)
      ∧ (∀ c : Word, c ≠ a → (busWrite a v s).byteAt c = s.byteAt c)
      ∧ (intercepted a s = true → (busWrite a v s).mem = s.mem)
      ∧ (intercepted a s = true → (busRead a s).1 = Config.ioRead a (s.past ++ s.events))
      ∧ busWrite a v s = { s with mem := (busWrite a v s).mem, events := s.events ++ [.write a v] }
      ∧ (busRead a s).2 = { s with events := s.events ++ [.read a (busRead a s).1] }

/-- R22, R49 to R51: pushes and pulls stay in page 1, the stack pointer wraps modulo 256, and a pull gives back what was
pushed. The wrap without a fault is D19 of 92_eei_decisions.md. That a push is one write is D10 there. -/
def Obligations.PullGivesBackPush : Prop :=
  ∀ (v : Byte) (s : State),
    (stackAddr s.sp).toNat = 0x0100 + s.sp.toNat
      ∧ (push v s).sp.toNat = (s.sp.toNat + 255) % 256
      ∧ (pull s).2.sp.toNat = (s.sp.toNat + 1) % 256
      ∧ (push v s).events = s.events ++ [.write (stackAddr s.sp) v]
      ∧ (intercepted (stackAddr s.sp) s = false → s.mem.wf = true →
          (pull (push v s)).1 = v ∧ (pull (push v s)).2.sp = s.sp)

/-- R24, R25: the packed status has N V 1 B D I Z C in bits 7 to 0 (the positions are D6, and bits 5 and 4 are D5, of
92_eei_decisions.md), and unpacking it gives the six flags back whatever B is. -/
def Obligations.StatusByteLayout : Prop :=
  ∀ (b : Bool) (p : Flags) (v : Byte),
    (packP b p).toNat = 128 * p.n.toNat + 64 * p.v.toNat + 32 + 16 * b.toNat + 8 * p.d.toNat + 4 * p.i.toNat
        + 2 * p.z.toNat + p.c.toNat
      ∧ unpackP (packP b p) = p
      ∧ packP b (unpackP v) = (v &&& 0xCF) ||| (if b then 0x30 else 0x20)

/-! ### The address resolver -/

/-- R84 to R89: the effective address and LEN of the modes that read no pointer, in numbers. The wrap modulo 65536 is D15 of
92_eei_decisions.md. -/
def Obligations.DirectEffectiveAddresses : Prop :=
  ∀ (b : Byte) (w : Word) (s : State),
    (effectiveAddress (.zp b) s).toNat = b.toNat ∧ memLen (.zp b) = 1
      ∧ (effectiveAddress (.zpX b) s).toNat = (b.toNat + s.x.toNat) % 256 ∧ memLen (.zpX b) = 1
      ∧ (effectiveAddress (.zpY b) s).toNat = (b.toNat + s.y.toNat) % 256 ∧ memLen (.zpY b) = 1
      ∧ ((effectiveAddress (.rel b) s).toNat : Int) = ((s.pc.toNat : Int) + 2 + b.toInt) % 65536 ∧ memLen (.rel b) = 1
      ∧ effectiveAddress (.abs w) s = w ∧ memLen (.abs w) = 2
      ∧ (effectiveAddress (.absX w) s).toNat = (w.toNat + s.x.toNat) % 65536 ∧ memLen (.absX w) = 2
      ∧ (effectiveAddress (.absY w) s).toNat = (w.toNat + s.y.toNat) % 65536 ∧ memLen (.absY w) = 2

/-- R91, R92 with R47: the pointer of (Indirect,X) and of (Indirect),Y wraps within page 0, for its own computation and for
its second byte (D2 of 92_eei_decisions.md); each pointer byte is what the bus answers (`busValue`), low byte first. Y is
added modulo 65536 (D15 there). What the history of an intercepted read holds is the model's reading (DEDUCED,
notes/assumptions/3.md). -/
def Obligations.IndirectEffectiveAddresses : Prop :=
  ∀ (b : Byte) (p : Nat) (s : State),
    let lowAt : Word := BitVec.ofNat 16 p
    let highAt : Word := BitVec.ofNat 16 ((p + 1) % 256)
    let lo := busValue lowAt s
    let hi := busValue highAt { s with events := s.events ++ [.read lowAt lo] }
    (p = (b.toNat + s.x.toNat) % 256 →
        (effectiveAddress (.indX b) s).toNat = lo.toNat + 256 * hi.toNat ∧ memLen (.indX b) = 1)
      ∧ (p = b.toNat →
        (effectiveAddress (.indY b) s).toNat = (lo.toNat + 256 * hi.toNat + s.y.toNat) % 65536 ∧ memLen (.indY b) = 1)

/-- R90: with the page-wrap defect, a pointer whose low byte is 0xFF takes its high byte from the start of the same page;
otherwise, or with the defect off, from the next address modulo 65536. Each pointer byte is what the bus answers. That the
defect is a parameter is D3 of 92_eei_decisions.md. The wrap modulo 65536 is D15 there; what the history of an intercepted
read holds is the model's reading (DEDUCED, notes/assumptions/3.md). -/
def Obligations.IndirectJumpPageWrap : Prop :=
  ∀ (w : Word) (s : State),
    let highAt : Word := if s.cfg.jmpIndWrapBug = true ∧ w.toNat % 256 = 255 then BitVec.ofNat 16 (w.toNat - 255) else w + 1
    let lo := busValue w s
    let hi := busValue highAt { s with events := s.events ++ [.read w lo] }
    effectiveAddress (.ind w) s = wordOf lo hi ∧ memLen (.ind w) = 2

/-- R94: the resolver changes nothing but the event list, to which it adds the reads of the table, each answered by the bus
(`busReads`), and no others. R84 to R92 and R94 have the resolver itself read the operand bytes at PC + 1 and PC + 2: in the
model the fetch has made those reads, so `resolve` makes the pointer reads alone (DEDUCED, notes/assumptions/8.md). That
there are no dummy reads is D10 of 92_eei_decisions.md. What the history of an intercepted read holds is the model's reading
(DEDUCED, notes/assumptions/3.md). The zero-page wrap of a pointer's second byte (R47), the page-wrap defect of JMP (R90)
and the wrap modulo 65536 are D2 (with notes/assumptions/15.md), D3 and D15 there. -/
def Obligations.ResolverReadsOnlyPointers : Prop :=
  ∀ (m : MemMode) (s : State),
    let pointers : List Word :=
      match m with
      | .ind w => [w, if s.cfg.jmpIndWrapBug && loByte w == 0xFF then w &&& 0xFF00 else w + 1]
      | .indX b => [zext16 (b + s.x), zext16 (b + s.x + 1)]
      | .indY b => [zext16 b, zext16 (b + 1)]
      | .zp _ | .zpX _ | .zpY _ | .rel _ | .abs _ | .absX _ | .absY _ => []
    (resolve m s).2 = { s with events := s.events ++ busReads pointers s }

/-- R104: a memory operand is exactly one bus read at EA. R83 and R104 make an immediate operand one bus read at EA = PC + 1
too: in the model the fetch has made that read, so `readSource` gives the byte with no further access (DEDUCED,
notes/assumptions/8.md). What the history of an intercepted read holds is the model's reading (DEDUCED,
notes/assumptions/3.md). -/
def Obligations.ReadOperandIsOneRead : Prop :=
  ∀ (v : Byte) (m : MemMode) (s : State),
    readSource (.imm v) s = (v, s)
      ∧ (readSource (.mem m) s).1 = busValue (effectiveAddress m s) (resolve m s).2
      ∧ (readSource (.mem m) s).2 = { s with
          events := (resolve m s).2.events ++ [.read (effectiveAddress m s) (readSource (.mem m) s).1] }

/-! ### Arithmetic and compare -/

/-- ADC (R120), all eight rows: the sum in numbers, C, V, Z and N, and nothing else but PC and the read. That N follows the
result is what R120 marks as general knowledge (PRESUMED, notes/assumptions/15.md). -/
def Obligations.AdcAddsWithCarry : Prop :=
  ∀ (i : Instr) (src : Source) (s : State), i.view = (.adc, src.form) →
    let m := (readSource src s).1
    let sum := s.a.toNat + m.toNat + s.p.c.toNat
    let res : Byte := BitVec.ofNat 8 sum
    exec i s = .next { s with
      a := res
      p := { s.p with c := decide (255 < sum), v := ((s.a ^^^ res) &&& (m ^^^ res)).getLsbD 7 }.withZN res
      pc := nextPc i s
      events := (readSource src s).2.events }

/-- R120, R125: V after ADC is signed overflow: the sum of the two signed operands and the carry does not fit in 8 bits. -/
def Obligations.AdcOverflowIsSignedOverflow : Prop :=
  ∀ (i : Instr) (src : Source) (s : State), i.view = (.adc, src.form) →
    ∃ t : State, exec i s = .next t
      ∧ (t.p.v = true ↔
          let sum := s.a.toInt + (readSource src s).1.toInt + (s.p.c.toNat : Int)
          sum < -128 ∨ 127 < sum)

/-- SBC (R121), all eight rows: A - M - (1 - C) in numbers; C is set when there is no borrow; V as the rule's second form
gives it. That this is ADC of the ones' complement of M is the spec's own resolution, C2 of 90_conflicts.md, against the
source's "two's-complement negation"; Z and N are in part what R121 marks as general knowledge (PRESUMED,
notes/assumptions/15.md). -/
def Obligations.SbcSubtractsWithBorrow : Prop :=
  ∀ (i : Instr) (src : Source) (s : State), i.view = (.sbc, src.form) →
    let m := (readSource src s).1
    let borrow := 1 - s.p.c.toNat
    let res : Byte := BitVec.ofInt 8 ((s.a.toNat : Int) - m.toNat - borrow)
    exec i s = .next { s with
      a := res
      p := { s.p with c := decide (m.toNat + borrow ≤ s.a.toNat), v := ((s.a ^^^ m) &&& (s.a ^^^ res)).getLsbD 7 }.withZN res
      pc := nextPc i s
      events := (readSource src s).2.events }

/-- CMP, CPX, CPY (R122 to R124), all fourteen rows: C is register ≥ operand, Z is equality, N is bit 7 of the difference;
V, the registers and memory are unchanged. -/
def Obligations.CompareSetsCarryZeroNegative : Prop :=
  ∀ (i : Instr) (src : Source) (s : State) (k : Kind) (reg : Byte),
    (k, reg) ∈ [(Kind.cmp, s.a), (.cpx, s.x), (.cpy, s.y)] → i.view = (k, src.form) →
    let m := (readSource src s).1
    exec i s = .next { s with
      p := { s.p with
        c := decide (m.toNat ≤ reg.toNat)
        z := decide (reg.toNat = m.toNat)
        n := decide (128 ≤ (reg.toNat + (256 - m.toNat)) % 256) }
      pc := nextPc i s
      events := (readSource src s).2.events }

/-! ### Shifts and rotates -/

/-- ASL, LSR, ROL, ROR (R130 to R133), all twenty rows, in numbers: the shifted value goes to A, or to the cell at EA with one
read and one write; C is the bit shifted out. The updates of Z and N are general knowledge in the spec (43_shift_rotate.md;
PRESUMED, notes/assumptions/15.md), and the one read and one write are D10 of 92_eei_decisions.md. -/
def Obligations.ShiftsAndRotates : Prop :=
  (∀ s : State,
    let m := s.a.toNat
    let c := s.p.c.toNat
    let after (res : Byte) (out : Bool) : State :=
      { s with a := res, p := { s.p with c := out }.withZN res, pc := s.pc + 1 }
    exec .aslA s = .next (after (BitVec.ofNat 8 (2 * m)) (decide (128 ≤ m)))
      ∧ exec .lsrA s = .next (after (BitVec.ofNat 8 (m / 2)) (decide (m % 2 = 1)))
      ∧ exec .rolA s = .next (after (BitVec.ofNat 8 (2 * m + c)) (decide (128 ≤ m)))
      ∧ exec .rorA s = .next (after (BitVec.ofNat 8 (m / 2 + 128 * c)) (decide (m % 2 = 1))))
  ∧ ∀ (i : Instr) (mode : MemMode) (s : State),
    let ea := effectiveAddress mode s
    let m := (readSource (.mem mode) s).1.toNat
    let c := s.p.c.toNat
    let after (res : Byte) (out : Bool) : State :=
      { s with
        mem := (busWrite ea res s).mem
        p := { s.p with c := out }.withZN res
        pc := nextPc i s
        events := (readSource (.mem mode) s).2.events ++ [.write ea res] }
    (i.view = (.asl, .mem mode) → exec i s = .next (after (BitVec.ofNat 8 (2 * m)) (decide (128 ≤ m))))
      ∧ (i.view = (.lsr, .mem mode) → exec i s = .next (after (BitVec.ofNat 8 (m / 2)) (decide (m % 2 = 1))))
      ∧ (i.view = (.rol, .mem mode) → exec i s = .next (after (BitVec.ofNat 8 (2 * m + c)) (decide (128 ≤ m))))
      ∧ (i.view = (.ror, .mem mode) → exec i s = .next (after (BitVec.ofNat 8 (m / 2 + 128 * c)) (decide (m % 2 = 1))))

/-! ### Increments and decrements -/

/-- INC and DEC (R140, R141), all eight rows: the cell wraps modulo 256, Z and N follow the result, C and V are unchanged.
One read and one write of EA, and no other access, is D10 of 92_eei_decisions.md (R53, R105). -/
def Obligations.IncDecMemory : Prop :=
  ∀ (i : Instr) (mode : MemMode) (s : State),
    let ea := effectiveAddress mode s
    let m := (readSource (.mem mode) s).1.toNat
    let after (res : Byte) : State :=
      { s with
        mem := (busWrite ea res s).mem
        p := s.p.withZN res
        pc := nextPc i s
        events := (readSource (.mem mode) s).2.events ++ [.write ea res] }
    (i.view = (.inc, .mem mode) → exec i s = .next (after (BitVec.ofNat 8 ((m + 1) % 256))))
      ∧ (i.view = (.dec, .mem mode) → exec i s = .next (after (BitVec.ofNat 8 ((m + 255) % 256))))

/-- INX, INY, DEX, DEY (R142 to R145): the index register wraps modulo 256, Z and N follow it, and C and V are unchanged. -/
def Obligations.IncDecIndexRegisters : Prop :=
  ∀ s : State,
    let up (v : Byte) : Byte := BitVec.ofNat 8 ((v.toNat + 1) % 256)
    let down (v : Byte) : Byte := BitVec.ofNat 8 ((v.toNat + 255) % 256)
    exec .inx s = .next { s with x := up s.x, p := s.p.withZN (up s.x), pc := s.pc + 1 }
      ∧ exec .iny s = .next { s with y := up s.y, p := s.p.withZN (up s.y), pc := s.pc + 1 }
      ∧ exec .dex s = .next { s with x := down s.x, p := s.p.withZN (down s.x), pc := s.pc + 1 }
      ∧ exec .dey s = .next { s with y := down s.y, p := s.p.withZN (down s.y), pc := s.pc + 1 }

/-! ### Logic, loads and stores -/

/-- AND, ORA, EOR (R150 to R152), all twenty-four rows: bit by bit, with Z and N from the result and no other flag. -/
def Obligations.LogicOnTheAccumulator : Prop :=
  ∀ (i : Instr) (src : Source) (s : State),
    let m := (readSource src s).1
    let after (res : Byte) : State :=
      { s with a := res, p := s.p.withZN res, pc := nextPc i s, events := (readSource src s).2.events }
    (i.view = (.and, src.form) → ∃ res, exec i s = .next (after res) ∧
        ∀ k < 8, res.getLsbD k = (s.a.getLsbD k && m.getLsbD k))
      ∧ (i.view = (.ora, src.form) → ∃ res, exec i s = .next (after res) ∧
        ∀ k < 8, res.getLsbD k = (s.a.getLsbD k || m.getLsbD k))
      ∧ (i.view = (.eor, src.form) → ∃ res, exec i s = .next (after res) ∧
        ∀ k < 8, res.getLsbD k = xor (s.a.getLsbD k) (m.getLsbD k))

/-- BIT (R153), both rows: Z from A and M, V and N from M alone; A and C are unchanged. -/
def Obligations.BitTestsWithoutStoring : Prop :=
  ∀ (i : Instr) (mode : MemMode) (s : State), i.view = (.bit, .mem mode) →
    let m := (readSource (.mem mode) s).1
    exec i s = .next { s with
      p := { s.p with z := decide (s.a &&& m = 0), v := m.getLsbD 6, n := m.getLsbD 7 }
      pc := nextPc i s
      events := (readSource (.mem mode) s).2.events }

/-- LDA, LDX, LDY (R154 to R156), all eighteen rows: the register takes the operand, Z and N follow it. -/
def Obligations.LoadsWriteRegister : Prop :=
  ∀ (i : Instr) (src : Source) (s : State),
    let m := (readSource src s).1
    let after : State := { s with p := s.p.withZN m, pc := nextPc i s, events := (readSource src s).2.events }
    (i.view = (.lda, src.form) → exec i s = .next { after with a := m })
      ∧ (i.view = (.ldx, src.form) → exec i s = .next { after with x := m })
      ∧ (i.view = (.ldy, src.form) → exec i s = .next { after with y := m })

/-- STA, STX, STY (R157 to R159), all thirteen rows: one write of the register at EA with no read of EA, and no flag. The
three rules are general knowledge in the spec (PRESUMED, notes/assumptions/15.md), and that a store makes no read is R53's
decision (D10 of 92_eei_decisions.md). -/
def Obligations.StoresWriteMemory : Prop :=
  ∀ (i : Instr) (mode : MemMode) (s : State) (k : Kind) (reg : Byte),
    (k, reg) ∈ [(Kind.sta, s.a), (.stx, s.x), (.sty, s.y)] → i.view = (k, .mem mode) →
    exec i s = .next { s with
      mem := (busWrite (effectiveAddress mode s) reg s).mem
      pc := nextPc i s
      events := (resolve mode s).2.events ++ [.write (effectiveAddress mode s) reg] }

/-- FRAME AND EFFECT OF THE STORING FORMS, through the read of one byte (R40, R53, R105): for STA, STX, STY, INC, DEC and
the shifts in memory, the byte written at EA is the one the last bus event shows, and every other byte reads as before. That
an intercepted EA leaves every byte as it was is the model's reading (DEDUCED, notes/assumptions/9.md; D13 of
92_eei_decisions.md calls the cell undefined for the block). That there is one write and no dummy access is D10 there. The
stores are general knowledge in the spec (PRESUMED, notes/assumptions/15.md). -/
def Obligations.StoringFormsFrame : Prop :=
  ∀ (i : Instr) (mode : MemMode) (s : State), i.form = .mem mode →
    i.kind ∈ [Kind.sta, .stx, .sty, .inc, .dec, .asl, .lsr, .rol, .ror] →
    ∃ (t : State) (v : Byte), exec i s = .next t
      ∧ t.events.getLast? = some (.write (effectiveAddress mode s) v)
      ∧ (s.mem.wf = true → intercepted (effectiveAddress mode s) s = false → t.byteAt (effectiveAddress mode s) = v)
      ∧ (intercepted (effectiveAddress mode s) s = true → ∀ a : Word, t.byteAt a = s.byteAt a)
      ∧ (∀ a : Word, a ≠ effectiveAddress mode s → t.byteAt a = s.byteAt a)
      ∧ t.a = s.a ∧ t.x = s.x ∧ t.y = s.y ∧ t.sp = s.sp ∧ t.p.i = s.p.i ∧ t.p.d = s.p.d ∧ t.p.v = s.p.v

/-! ### Control flow -/

/-- The eight branches (R170 to R178): taken when the condition holds, to the next instruction's address plus the signed
offset; else PC advances by 2. Nothing else changes. The mnemonics and conditions are general knowledge in the spec
(PRESUMED, notes/assumptions/15.md). The wrap modulo 65536 is D15 of 92_eei_decisions.md. -/
def Obligations.BranchesTakenOrNot : Prop :=
  ∀ (i : Instr) (off : Byte) (s : State) (k : Kind) (cond : Bool),
    (k, cond) ∈ [(Kind.bcc, !s.p.c), (.bcs, s.p.c), (.beq, s.p.z), (.bne, !s.p.z), (.bmi, s.p.n), (.bpl, !s.p.n),
      (.bvc, !s.p.v), (.bvs, s.p.v)] →
    i.view = (k, .mem (.rel off)) →
    exec i s = .next { s with
      pc := if cond then BitVec.ofInt 16 ((s.pc.toNat : Int) + 2 + off.toInt) else s.pc + 2 }

/-- JMP (R179), both rows: PC takes EA, nothing is read at EA (only the pointer of the Indirect row is read), and nothing
else changes. The source names the Indirect row alone: the Absolute row is what R179 marks as general knowledge (PRESUMED,
notes/assumptions/15.md). -/
def Obligations.JmpGoesToEffectiveAddress : Prop :=
  ∀ (i : Instr) (mode : MemMode) (s : State), i.view = (.jmp, .mem mode) →
    exec i s = .next { s with pc := effectiveAddress mode s, events := (resolve mode s).2.events }

/-- JSR (R180): the address of its last byte is pushed, high byte first (D1 of 92_eei_decisions.md), then PC takes the
target; every byte outside the two stack slots, and every flag and other register, is unchanged. That the operand is read
before the pushes is D16 there. -/
def Obligations.JsrPushesReturnAddress : Prop :=
  ∀ (w : Word) (s : State),
    let ret := s.pc + 2
    ∃ mem' : Memory,
      exec (.jsr w) s = .next { s with
        sp := s.sp - 2
        pc := w
        mem := mem'
        events := s.events ++ [.write (stackAddr s.sp) (hiByte ret), .write (stackAddr (s.sp - 1)) (loByte ret)] }
      ∧ (∀ a : Word, a ≠ stackAddr s.sp → a ≠ stackAddr (s.sp - 1) → mem'.read a.toNat = s.byteAt a)
      ∧ (s.mem.wf = true → intercepted (stackAddr s.sp) s = false → intercepted (stackAddr (s.sp - 1)) s = false →
          mem'.read (stackAddr s.sp).toNat = hiByte ret ∧ mem'.read (stackAddr (s.sp - 1)).toNat = loByte ret)

/-- RTS (R181): the return address is pulled, low byte first, and PC is the address after it; SP rises by 2 and nothing else
changes. Each byte is what the bus answers at its slot. (The byte order is D1 of 92_eei_decisions.md.) -/
def Obligations.RtsPullsReturnAddress : Prop :=
  ∀ s : State,
    let lo := busValue (stackAddr (s.sp + 1)) s
    let first : BusEvent := .read (stackAddr (s.sp + 1)) lo
    let hi := busValue (stackAddr (s.sp + 2)) { s with events := s.events ++ [first] }
    exec .rts s = .next { s with
      sp := s.sp + 2
      pc := wordOf lo hi + 1
      events := s.events ++ [first, .read (stackAddr (s.sp + 2)) hi] }

/-- R180, R181: RTS after JSR resumes at the instruction after the JSR, with the stack pointer as it was, whatever the stack
pointer (its wrap included); the stack slots are plain memory. The wrap is D19 of 92_eei_decisions.md. -/
def Obligations.RtsUndoesJsr : Prop :=
  ∀ (w : Word) (s t : State), s.mem.wf = true →
    intercepted (stackAddr s.sp) s = false → intercepted (stackAddr (s.sp - 1)) s = false →
    exec (.jsr w) s = .next t →
    ∃ u : State, exec .rts t = .next u ∧ u.pc = s.pc + 3 ∧ u.sp = s.sp ∧ u.p = s.p ∧ u.a = s.a ∧ u.x = s.x ∧ u.y = s.y

/-! ### Stack and transfers -/

/-- PHA and PHP (R190, R191): one byte is pushed: A, or the packed flags with bits 5 and 4 set (D5 of 92_eei_decisions.md;
the flags' places are D6). Every byte but the slot, and every flag and other register, is unchanged. -/
def Obligations.PushesWriteTheStack : Prop :=
  ∀ (i : Instr) (s : State) (v : Byte),
    (i, v) ∈ [(Instr.pha, s.a), (.php, packP true s.p)] →
    ∃ mem' : Memory,
      exec i s = .next { s with
        sp := s.sp - 1
        pc := s.pc + 1
        mem := mem'
        events := s.events ++ [.write (stackAddr s.sp) v] }
      ∧ (∀ a : Word, a ≠ stackAddr s.sp → mem'.read a.toNat = s.byteAt a)
      ∧ (s.mem.wf = true → intercepted (stackAddr s.sp) s = false → mem'.read (stackAddr s.sp).toNat = v)

/-- PLA and PLP (R192, R193): the byte at the incremented stack pointer goes to A, with Z and N, or to the six flags; memory
is unchanged. An intercepted slot is answered by the host (`busValue`). That PLA writes Z and N is what R192 marks as general
knowledge (PRESUMED, notes/assumptions/15.md); the bits PLP takes and drops are D6 and D5 of 92_eei_decisions.md. -/
def Obligations.PullsReadTheStack : Prop :=
  ∀ s : State,
    let slot := stackAddr (s.sp + 1)
    let v := busValue slot s
    let after : State := { s with sp := s.sp + 1, pc := s.pc + 1, events := s.events ++ [.read slot v] }
    exec .pla s = .next { after with a := v, p := s.p.withZN v }
      ∧ exec .plp s = .next { after with p :=
          ⟨v.getLsbD 0, v.getLsbD 1, v.getLsbD 2, v.getLsbD 3, v.getLsbD 6, v.getLsbD 7⟩ }

/-- R190, R192: PLA after PHA restores the accumulator (whatever A holds in between) and leaves the stack pointer as it was
before the pair; the slot is plain memory. -/
def Obligations.PlaUndoesPha : Prop :=
  ∀ (s t : State) (a' : Byte), s.mem.wf = true → intercepted (stackAddr s.sp) s = false → exec .pha s = .next t →
    ∃ u : State, exec .pla { t with a := a' } = .next u ∧ u.a = s.a ∧ u.sp = s.sp ∧ u.pc = s.pc + 2

/-- TAX, TAY, TXA, TYA, TSX, TXS (R194 to R199): the register is copied, Z and N follow the value, but TXS writes no flag. -/
def Obligations.TransfersCopyRegisters : Prop :=
  ∀ s : State,
    exec .tax s = .next { s with x := s.a, p := s.p.withZN s.a, pc := s.pc + 1 }
      ∧ exec .tay s = .next { s with y := s.a, p := s.p.withZN s.a, pc := s.pc + 1 }
      ∧ exec .txa s = .next { s with a := s.x, p := s.p.withZN s.x, pc := s.pc + 1 }
      ∧ exec .tya s = .next { s with a := s.y, p := s.p.withZN s.y, pc := s.pc + 1 }
      ∧ exec .tsx s = .next { s with x := s.sp, p := s.p.withZN s.sp, pc := s.pc + 1 }
      ∧ exec .txs s = .next { s with sp := s.x, pc := s.pc + 1 }

/-! ### BRK, RTI, flag instructions, NOP -/

/-- BRK (R210): PC + 2 and the status with B = 1 are pushed, I is set, D and the latches are unchanged, and PC is loaded
from the IRQ/BRK vector, which no push can reach (an intercepted vector byte is the host's). PC + 2 (with
notes/assumptions/15.md), the unchanged D, B = 1 and the order of the pushed bytes are D4, D22, D5 and D1 of
92_eei_decisions.md. That a pending NMI changes nothing of this is D26 there, and the flags' places in the status are D6.
The vector is R48's. -/
def Obligations.BrkEntersThroughIrqVector : Prop :=
  ∀ s : State,
    let ret := s.pc + 2
    let pushes : List BusEvent := [.write (stackAddr s.sp) (hiByte ret), .write (stackAddr (s.sp - 1)) (loByte ret),
      .write (stackAddr (s.sp - 2)) (packP true s.p)]
    ∃ (mem' : Memory) (lo hi : Byte),
      exec .brk s = .next { s with
        sp := s.sp - 3
        p := { s.p with i := true }
        pc := wordOf lo hi
        mem := mem'
        events := s.events ++ pushes ++ [.read 0xFFFE lo, .read 0xFFFF hi] }
      ∧ lo = (if intercepted 0xFFFE s then Config.ioRead 0xFFFE (history s ++ pushes) else s.byteAt 0xFFFE)
      ∧ hi = (if intercepted 0xFFFF s then Config.ioRead 0xFFFF (history s ++ pushes ++ [.read 0xFFFE lo])
          else s.byteAt 0xFFFF)
      ∧ (∀ a : Word, a ∉ [stackAddr s.sp, stackAddr (s.sp - 1), stackAddr (s.sp - 2)] → mem'.read a.toNat = s.byteAt a)
      ∧ (s.mem.wf = true →
          (∀ a ∈ [stackAddr s.sp, stackAddr (s.sp - 1), stackAddr (s.sp - 2)], intercepted a s = false) →
          mem'.read (stackAddr s.sp).toNat = hiByte ret ∧ mem'.read (stackAddr (s.sp - 1)).toNat = loByte ret
            ∧ mem'.read (stackAddr (s.sp - 2)).toNat = packP true s.p)

/-- RTI (R211): the status, then PC low and high byte are pulled, each as the bus answers; nothing is added to PC, bits 5
and 4 of the status are discarded, and the latches are not touched (R238). The places of the flags, the discarded bits and
the byte order are D6, D5 and D1 of 92_eei_decisions.md. -/
def Obligations.RtiRestoresStatusAndPc : Prop :=
  ∀ s : State,
    let st := busValue (stackAddr (s.sp + 1)) s
    let first : BusEvent := .read (stackAddr (s.sp + 1)) st
    let lo := busValue (stackAddr (s.sp + 2)) { s with events := s.events ++ [first] }
    let second : BusEvent := .read (stackAddr (s.sp + 2)) lo
    let hi := busValue (stackAddr (s.sp + 3)) { s with events := s.events ++ [first, second] }
    exec .rti s = .next { s with
      sp := s.sp + 3
      p := ⟨st.getLsbD 0, st.getLsbD 1, st.getLsbD 2, st.getLsbD 3, st.getLsbD 6, st.getLsbD 7⟩
      pc := wordOf lo hi
      events := s.events ++ [first, second, .read (stackAddr (s.sp + 3)) hi] }

/-- R210, R211, R233, R238: the matching RTI restores the PC an entry pushed, the stack pointer and all six flags exactly:
after BRK (to PC + 2, which is D4 of 92_eei_decisions.md; PRESUMED, notes/assumptions/15.md) and after a hardware interrupt
(to the interrupted PC). The stack page is plain memory. Entry and return agree on the byte order (D1) and drop bits 5 and 4
(D5). -/
def Obligations.RtiUndoesInterruptEntry : Prop :=
  ∀ s t : State, s.mem.wf = true → (∀ q : Byte, intercepted (stackAddr q) s = false) →
    (exec .brk s = .next t →
      ∃ u : State, exec .rti t = .next u ∧ u.pc = s.pc + 2 ∧ u.p = s.p ∧ u.sp = s.sp ∧ u.a = s.a ∧ u.x = s.x ∧ u.y = s.y)
    ∧ (s.halted = false → takesInterrupt s = true → step s = .next t →
      ∃ u : State, exec .rti t = .next u ∧ u.pc = s.pc ∧ u.p = s.p ∧ u.sp = s.sp ∧ u.a = s.a ∧ u.x = s.x ∧ u.y = s.y)

/-- CLC, SEC, CLI, SEI, CLV, CLD, SED, NOP (R212 to R219): the one flag named is written and PC advances by 1. The eight
rules are general knowledge in the spec (PRESUMED, notes/assumptions/15.md). -/
def Obligations.FlagInstructionsWriteOneFlag : Prop :=
  ∀ s : State,
    exec .clc s = .next { s with p := { s.p with c := false }, pc := s.pc + 1 }
      ∧ exec .sec s = .next { s with p := { s.p with c := true }, pc := s.pc + 1 }
      ∧ exec .cli s = .next { s with p := { s.p with i := false }, pc := s.pc + 1 }
      ∧ exec .sei s = .next { s with p := { s.p with i := true }, pc := s.pc + 1 }
      ∧ exec .clv s = .next { s with p := { s.p with v := false }, pc := s.pc + 1 }
      ∧ exec .cld s = .next { s with p := { s.p with d := false }, pc := s.pc + 1 }
      ∧ exec .sed s = .next { s with p := { s.p with d := true }, pc := s.pc + 1 }
      ∧ exec .nop s = .next { s with pc := s.pc + 1 }

/-! ### Interrupts and errors -/

/-- NMI AND IRQ ENTRY (R231 to R236): a pending NMI, or a pending IRQ with I clear, is taken before any fetch; NMI first,
with the IRQ latch kept; the served latch is cleared; PC and the status with B = 0 are pushed; I is set; PC is loaded from
the vector through the bus; the step returns 7. Latches and priority, the unchanged D, the count 7, B = 0 and the order of
the pushed bytes are D9, D22, D11, D5 and D1 of 92_eei_decisions.md. The flags' places in the status are D6 there. The
vectors are R48's. -/
def Obligations.InterruptEntry : Prop :=
  ∀ s : State, s.halted = false → (s.nmiPending = true ∨ (s.irqPending = true ∧ s.p.i = false)) →
    let vec : Word := if s.nmiPending then 0xFFFA else 0xFFFE
    let pushes : List BusEvent := [.write (stackAddr s.sp) (hiByte s.pc), .write (stackAddr (s.sp - 1)) (loByte s.pc),
      .write (stackAddr (s.sp - 2)) (packP false s.p)]
    ∃ (mem' : Memory) (lo hi : Byte),
      step s = .next { s with
        sp := s.sp - 3
        p := { s.p with i := true }
        pc := wordOf lo hi
        nmiPending := false
        irqPending := s.nmiPending && s.irqPending
        mem := mem'
        past := s.past ++ s.events
        events := pushes ++ [.read vec lo, .read (vec + 1) hi]
        result := some (.ok 7) }
      ∧ lo = (if intercepted vec s then Config.ioRead vec (history s ++ pushes) else s.byteAt vec)
      ∧ hi = (if intercepted (vec + 1) s then Config.ioRead (vec + 1) (history s ++ pushes ++ [.read vec lo])
          else s.byteAt (vec + 1))
      ∧ (∀ a : Word, a ∉ [stackAddr s.sp, stackAddr (s.sp - 1), stackAddr (s.sp - 2)] → mem'.read a.toNat = s.byteAt a)
      ∧ (s.mem.wf = true →
          (∀ a ∈ [stackAddr s.sp, stackAddr (s.sp - 1), stackAddr (s.sp - 2)], intercepted a s = false) →
          mem'.read (stackAddr s.sp).toNat = hiByte s.pc ∧ mem'.read (stackAddr (s.sp - 1)).toNat = loByte s.pc
            ∧ mem'.read (stackAddr (s.sp - 2)).toNat = packP false s.p)

/-- R231: an IRQ whose latch is set while I = 1 stays pending over the step, which runs an instruction (D9 of
92_eei_decisions.md). That the step answers a next state also where it fetches an Invalid byte under Halt, and R239 and R240
return Fault, is the model's choice (DESIGN CHOICE, notes/assumptions/4.md). -/
def Obligations.MaskedIrqStaysPending : Prop :=
  ∀ s : State, s.halted = false → s.nmiPending = false → s.irqPending = true → s.p.i = true →
    ∃ t : State, step s = .next t ∧ runInstruction (beginEvents s) = .next t ∧ t.irqPending = true

/-- R281: after CLI with an IRQ pending, the next step takes the IRQ, before the instruction that follows CLI, and pushes
that instruction's address (D17 of 92_eei_decisions.md; the latch is D9). The entry is R233's, its high byte pushed first D1
there (PRESUMED, notes/assumptions/15.md, as CLI itself, R214). The opcode is what the bus answers at PC, intercepted or
not. What the history of an intercepted read holds is the model's reading (DEDUCED, notes/assumptions/3.md). -/
def Obligations.IrqTakenRightAfterCli : Prop :=
  ∀ s : State, s.halted = false → s.nmiPending = false → s.irqPending = true → s.p.i = true →
    busValue s.pc (beginEvents s) = 0x58 →
    ∃ t u : State, step s = .next t ∧ t.pc = s.pc + 1 ∧ t.p.i = false ∧ t.irqPending = true
      ∧ step t = .next u ∧ u.irqPending = false ∧ u.p.i = true
      ∧ u.events.take 2 = [.write (stackAddr s.sp) (hiByte (s.pc + 1)), .write (stackAddr (s.sp - 1)) (loByte (s.pc + 1))]

/-- R28, R274: a raise sets its latch and nothing else, a second raise changes nothing, and `Reset()` loses both (D9 of
92_eei_decisions.md). -/
def Obligations.RaisingALineIsALatch : Prop :=
  ∀ s : State,
    raiseNMI s = { s with nmiPending := true } ∧ raiseIRQ s = { s with irqPending := true }
      ∧ raiseNMI (raiseNMI s) = raiseNMI s ∧ raiseIRQ (raiseIRQ s) = raiseIRQ s
      ∧ (hostReset (raiseNMI (raiseIRQ s))).nmiPending = false ∧ (hostReset (raiseNMI (raiseIRQ s))).irqPending = false

/-- R239, R240: what an Invalid opcode does under each policy (the default is D8 of 92_eei_decisions.md, the count 2 is D11,
what the fault carries D27). That the halting step is a next state which records the fault as its result is the model's
choice (notes/assumptions/4.md). -/
def Obligations.InvalidOpcodeFollowsPolicy : Prop :=
  ∀ (op : Byte) (s : State),
    (s.cfg.illegalPolicy = .halt → exec (.invalid op) s = .next { s with
        halted := true, haltOpcode := op, result := some (.illegalOpcode s.pc op) })
      ∧ (s.cfg.illegalPolicy = .skip → exec (.invalid op) s = .next { s with
        pc := s.pc + 1, result := some (.ok 2) })

/-- R100, R113, R239, R240, R249: a step that fetches an Invalid byte makes that one read and no other access; under Halt
the block is then halted at that opcode, and every step returns the fault about it, even with both interrupt lines raised.
The halt and what the fault carries are D8 and D27 of 92_eei_decisions.md. That the halting step, which by R239 and R240
returns Fault, is a next state with that fault as its result is the model's choice (DESIGN CHOICE, notes/assumptions/4.md).
That reset leaves the halt is R274's. The byte is what the bus answers at PC, intercepted or not. What the history of an
intercepted read holds is the model's reading (DEDUCED, notes/assumptions/3.md). -/
def Obligations.InvalidFetchHaltsUntilReset : Prop :=
  ∀ (s : State) (op : Byte), s.halted = false → takesInterrupt s = false → busValue s.pc (beginEvents s) = op →
    invalidOpcodes.contains op = true → s.cfg.illegalPolicy = .halt →
    ∃ t : State, step s = .next t
      ∧ t = { s with
          halted := true
          haltOpcode := op
          past := s.past ++ s.events
          events := [.read s.pc op]
          result := some (.illegalOpcode s.pc op) }
      ∧ step t = .fault (.illegalOpcode s.pc op)
      ∧ step (raiseNMI (raiseIRQ t)) = .fault (.illegalOpcode s.pc op)
      ∧ (hostReset t).halted = false
end

