-- ==== Sys2Proof/Laws/Decode.lean ====
section
/-! SUPPORT. The decoder's table and byte order: what later proofs about decoding cite instead of unfolding them. -/

namespace Sys2Proof

set_option maxRecDepth 2000 in
/-- The table has an entry for every opcode byte (R62). -/
theorem opcodeTable_length : opcodeTable.length = 256 := rfl

@[simp] theorem wordOf_lo_hi (w : Word) : wordOf (loByte w) (hiByte w) = w := by
  ext k hk
  by_cases h : k < 8
  · simp [wordOf, loByte, hiByte, h, BitVec.getLsbD_eq_getElem hk]
  · have h' : k - 8 < 8 := by omega
    simp [wordOf, loByte, hiByte, h, hk, h', show 8 + (k - 8) = k by omega]

@[simp] theorem loByte_wordOf (lo hi : Byte) : loByte (wordOf lo hi) = lo := by
  ext k hk
  simp [wordOf, loByte, hk, show k < 16 by omega]

@[simp] theorem hiByte_wordOf (lo hi : Byte) : hiByte (wordOf lo hi) = hi := by
  ext k hk
  simp [wordOf, hiByte, hk, show 8 + k < 16 by omega]

/-- The pair of bytes as a number (R45). -/
theorem wordOf_toNat (lo hi : Byte) : (wordOf lo hi).toNat = lo.toNat + 256 * hi.toNat := by
  have hl := lo.isLt
  have hh := hi.isLt
  unfold wordOf
  rw [BitVec.toNat_or, BitVec.toNat_shiftLeft, BitVec.toNat_setWidth, BitVec.toNat_setWidth,
    Nat.mod_eq_of_lt (a := hi.toNat) (by omega), Nat.mod_eq_of_lt (a := lo.toNat) (by omega),
    Nat.mod_eq_of_lt (by rw [Nat.shiftLeft_eq]; omega), ← Nat.shiftLeft_add_eq_or_of_lt lo.isLt, Nat.shiftLeft_eq]
  omega

/-- A statement about every byte follows from its 256 cases. -/
theorem byte_forall {P : Byte → Prop} (h : ∀ n : Fin 256, P (BitVec.ofFin n)) (v : Byte) : P v := h v.toFin

/-- A byte of R64's list is looked up as Invalid. -/
theorem lookup_invalid {op : Byte} (h : WellFormed (.invalid op) = true) : lookup op = .f1 (.invalid op) := by
  have all : ∀ v ∈ invalidOpcodes, lookup v = .f1 (.invalid v) := by
    simp only [invalidOpcodes, List.cons_append, List.nil_append, List.forall_mem_cons]
    repeat' constructor
    simp
  exact all op (by simpa [WellFormed] using h)

/-- A one-byte instruction decodes from its opcode alone. -/
theorem decode_f1 {op : Byte} {i : Instr} (h : lookup op = .f1 i) : decode [op] = .ok (i, []) := by
  simp [decode, h]

/-- A three-byte instruction decodes from its opcode and its word's two bytes. -/
theorem decode_f3 {op : Byte} {build : Word → Instr} (h : lookup op = .f3 build) (w : Word) :
    decode [op, loByte w, hiByte w] = .ok (build w, []) := by
  simp [decode, h]

end Sys2Proof
end

