-- ==== Sys2Proof/Laws/Memory.lean ====
section
/-! SUPPORT. The laws of the memory image: read after write, the canonical form is kept, and it is canonical. -/

namespace Sys2Proof.Machine

/-- Raising the least admitted address loses no canonical form but that of a lower first address. -/
theorem Memory.wfFrom_mono {lo hi : Nat} (h : lo ≤ hi) : ∀ {m : Memory}, m.wfFrom hi = true → m.wfFrom lo = true
  | [], _ => rfl
  | (a, v) :: rest, hm => by
    simp only [Memory.wfFrom, Bool.and_eq_true, decide_eq_true_eq] at hm ⊢
    exact ⟨⟨⟨by omega, hm.1.1.2⟩, hm.1.2⟩, hm.2⟩

/-- An address below every listed one reads as unlisted. -/
theorem Memory.read_below {lo a : Nat} (h : a < lo) : ∀ {m : Memory}, m.wfFrom lo = true → m.read a = Memory.unlisted
  | [], _ => rfl
  | (b, w) :: rest, hm => by
    simp only [Memory.wfFrom, Bool.and_eq_true, decide_eq_true_eq] at hm
    have hne : a ≠ b := by omega
    simpa [Memory.read, hne] using Memory.read_below (lo := b + 1) (by omega) hm.2

/-- A read of the address just written gives the byte written. -/
theorem Memory.read_write_same {lo a : Nat} {v : Byte} :
    ∀ {m : Memory}, m.wfFrom lo = true → (m.write a v).read a = v
  | [], _ => by
    by_cases hv : v = Memory.unlisted <;> simp [Memory.write, Memory.read, hv]
  | (b, w) :: rest, hm => by
    simp only [Memory.wfFrom, Bool.and_eq_true, decide_eq_true_eq] at hm
    by_cases hlt : a < b
    · by_cases hv : v = Memory.unlisted
      · have hne : a ≠ b := by omega
        simpa [Memory.write, Memory.read, hlt, hv, hne] using Memory.read_below (a := a) (lo := b + 1) (by omega) hm.2
      · simp [Memory.write, Memory.read, hlt, hv]
    · by_cases hab : a = b
      · by_cases hv : v = Memory.unlisted
        · simpa [Memory.write, hab, hv] using Memory.read_below (a := b) (lo := b + 1) (by omega) hm.2
        · simp [Memory.write, Memory.read, hab, hv]
      · simpa [Memory.write, Memory.read, hlt, hab] using Memory.read_write_same (a := a) (v := v) hm.2

/-- A write leaves every other address alone. -/
theorem Memory.read_write_other {a c : Nat} {v : Byte} (h : c ≠ a) :
    ∀ m : Memory, (m.write a v).read c = m.read c
  | [] => by
    by_cases hv : v = Memory.unlisted <;> simp [Memory.write, Memory.read, hv, h]
  | (b, w) :: rest => by
    by_cases hlt : a < b
    · by_cases hv : v = Memory.unlisted <;> simp [Memory.write, Memory.read, hlt, hv, h]
    · by_cases hab : a = b
      · subst hab
        by_cases hv : v = Memory.unlisted <;> simp [Memory.write, Memory.read, hv, h]
      · simp [Memory.write, Memory.read, hlt, hab, Memory.read_write_other h rest]

/-- A write keeps the canonical form. -/
theorem Memory.wfFrom_write {a : Nat} {v : Byte} (ha : a < 65536) :
    ∀ {lo : Nat} {m : Memory}, lo ≤ a → m.wfFrom lo = true → (m.write a v).wfFrom lo = true
  | lo, [], hlo, _ => by
    by_cases hv : v = Memory.unlisted <;> simp [Memory.write, Memory.wfFrom, hv, hlo, ha]
  | lo, (b, w) :: rest, hlo, hm => by
    simp only [Memory.wfFrom, Bool.and_eq_true, decide_eq_true_eq] at hm
    obtain ⟨⟨⟨h1, h2⟩, h3⟩, h4⟩ := hm
    by_cases hlt : a < b
    · by_cases hv : v = Memory.unlisted <;> simp [Memory.write, Memory.wfFrom, hlt, hv, hlo, ha, h1, h2, h3, h4]
    · by_cases hab : a = b
      · subst hab
        by_cases hv : v = Memory.unlisted
        · simpa [Memory.write, hv] using Memory.wfFrom_mono (by omega) h4
        · simp [Memory.write, Memory.wfFrom, hv, hlo, ha, h4]
      · have := Memory.wfFrom_write (v := v) ha (lo := b + 1) (by omega) h4
        simp [Memory.write, Memory.wfFrom, hlt, hab, h1, h2, h3, this]

/-- A write to a 16-bit address keeps the canonical form. -/
theorem Memory.wf_write {m : Memory} (a : Word) (v : Byte) (h : m.wf = true) : (m.write a.toNat v).wf = true :=
  Memory.wfFrom_write a.isLt (Nat.zero_le _) h

/-- The canonical form is canonical: two images that read alike everywhere are the same list. -/
theorem Memory.wfFrom_ext : ∀ {lo : Nat} {m m' : Memory}, m.wfFrom lo = true → m'.wfFrom lo = true →
    (∀ a, m.read a = m'.read a) → m = m'
  | _, [], [], _, _, _ => rfl
  | lo, [], (b, w) :: rest, _, h', heq => by
    simp only [Memory.wfFrom, Bool.and_eq_true, decide_eq_true_eq] at h'
    exact absurd (by simpa [Memory.read] using (heq b).symm) h'.1.2
  | lo, (b, w) :: rest, [], h, _, heq => by
    simp only [Memory.wfFrom, Bool.and_eq_true, decide_eq_true_eq] at h
    exact absurd (by simpa [Memory.read] using heq b) h.1.2
  | lo, (b, w) :: rest, (c, u) :: rest', h, h', heq => by
    simp only [Memory.wfFrom, Bool.and_eq_true, decide_eq_true_eq] at h h'
    have hbc : b = c := by
      rcases Nat.lt_trichotomy b c with hlt | he | hlt
      · have hb := heq b
        rw [Memory.read_below (a := b) (lo := c) (m := (c, u) :: rest') hlt (by simp [Memory.wfFrom, h'])] at hb
        exact absurd (by simpa [Memory.read] using hb) h.1.2
      · exact he
      · have hc := heq c
        rw [Memory.read_below (a := c) (lo := b) (m := (b, w) :: rest) hlt (by simp [Memory.wfFrom, h])] at hc
        exact absurd (by simpa [Memory.read] using hc.symm) h'.1.2
    subst hbc
    have hw : w = u := by simpa [Memory.read] using heq b
    subst hw
    have : rest = rest' := by
      refine Memory.wfFrom_ext h.2 h'.2 fun a => ?_
      by_cases hab : a = b
      · subst hab
        rw [Memory.read_below (lo := a + 1) (by omega) h.2, Memory.read_below (lo := a + 1) (by omega) h'.2]
      · simpa [Memory.read, hab] using heq a
    rw [this]

end Sys2Proof.Machine
end

