-- ==== Sys2Proof/Laws/State.lean ====
section
/-! SUPPORT. One lemma for each field and each named update of the state, true by rfl: what the operation leaves alone. (What
it changes stands in Laws/Ops.lean.) -/

namespace Sys2Proof.Machine

/-! `busRead` writes events and nothing else. -/

@[simp] theorem busRead_a (a : Word) (s : State) : (busRead a s).2.a = s.a := rfl
@[simp] theorem busRead_x (a : Word) (s : State) : (busRead a s).2.x = s.x := rfl
@[simp] theorem busRead_y (a : Word) (s : State) : (busRead a s).2.y = s.y := rfl
@[simp] theorem busRead_sp (a : Word) (s : State) : (busRead a s).2.sp = s.sp := rfl
@[simp] theorem busRead_pc (a : Word) (s : State) : (busRead a s).2.pc = s.pc := rfl
@[simp] theorem busRead_p (a : Word) (s : State) : (busRead a s).2.p = s.p := rfl
@[simp] theorem busRead_nmiPending (a : Word) (s : State) : (busRead a s).2.nmiPending = s.nmiPending := rfl
@[simp] theorem busRead_irqPending (a : Word) (s : State) : (busRead a s).2.irqPending = s.irqPending := rfl
@[simp] theorem busRead_halted (a : Word) (s : State) : (busRead a s).2.halted = s.halted := rfl
@[simp] theorem busRead_haltOpcode (a : Word) (s : State) : (busRead a s).2.haltOpcode = s.haltOpcode := rfl
@[simp] theorem busRead_mem (a : Word) (s : State) : (busRead a s).2.mem = s.mem := rfl
@[simp] theorem busRead_past (a : Word) (s : State) : (busRead a s).2.past = s.past := rfl
@[simp] theorem busRead_result (a : Word) (s : State) : (busRead a s).2.result = s.result := rfl
@[simp] theorem busRead_cfg (a : Word) (s : State) : (busRead a s).2.cfg = s.cfg := rfl

/-! `readPair` writes events and nothing else. -/

@[simp] theorem readPair_a (a b : Word) (s : State) : (readPair a b s).2.a = s.a := rfl
@[simp] theorem readPair_x (a b : Word) (s : State) : (readPair a b s).2.x = s.x := rfl
@[simp] theorem readPair_y (a b : Word) (s : State) : (readPair a b s).2.y = s.y := rfl
@[simp] theorem readPair_sp (a b : Word) (s : State) : (readPair a b s).2.sp = s.sp := rfl
@[simp] theorem readPair_pc (a b : Word) (s : State) : (readPair a b s).2.pc = s.pc := rfl
@[simp] theorem readPair_p (a b : Word) (s : State) : (readPair a b s).2.p = s.p := rfl
@[simp] theorem readPair_nmiPending (a b : Word) (s : State) : (readPair a b s).2.nmiPending = s.nmiPending := rfl
@[simp] theorem readPair_irqPending (a b : Word) (s : State) : (readPair a b s).2.irqPending = s.irqPending := rfl
@[simp] theorem readPair_halted (a b : Word) (s : State) : (readPair a b s).2.halted = s.halted := rfl
@[simp] theorem readPair_haltOpcode (a b : Word) (s : State) : (readPair a b s).2.haltOpcode = s.haltOpcode := rfl
@[simp] theorem readPair_mem (a b : Word) (s : State) : (readPair a b s).2.mem = s.mem := rfl
@[simp] theorem readPair_past (a b : Word) (s : State) : (readPair a b s).2.past = s.past := rfl
@[simp] theorem readPair_result (a b : Word) (s : State) : (readPair a b s).2.result = s.result := rfl
@[simp] theorem readPair_cfg (a b : Word) (s : State) : (readPair a b s).2.cfg = s.cfg := rfl

/-! `read16` writes events and nothing else. -/

@[simp] theorem read16_a (a : Word) (s : State) : (read16 a s).2.a = s.a := rfl
@[simp] theorem read16_x (a : Word) (s : State) : (read16 a s).2.x = s.x := rfl
@[simp] theorem read16_y (a : Word) (s : State) : (read16 a s).2.y = s.y := rfl
@[simp] theorem read16_sp (a : Word) (s : State) : (read16 a s).2.sp = s.sp := rfl
@[simp] theorem read16_pc (a : Word) (s : State) : (read16 a s).2.pc = s.pc := rfl
@[simp] theorem read16_p (a : Word) (s : State) : (read16 a s).2.p = s.p := rfl
@[simp] theorem read16_nmiPending (a : Word) (s : State) : (read16 a s).2.nmiPending = s.nmiPending := rfl
@[simp] theorem read16_irqPending (a : Word) (s : State) : (read16 a s).2.irqPending = s.irqPending := rfl
@[simp] theorem read16_halted (a : Word) (s : State) : (read16 a s).2.halted = s.halted := rfl
@[simp] theorem read16_haltOpcode (a : Word) (s : State) : (read16 a s).2.haltOpcode = s.haltOpcode := rfl
@[simp] theorem read16_mem (a : Word) (s : State) : (read16 a s).2.mem = s.mem := rfl
@[simp] theorem read16_past (a : Word) (s : State) : (read16 a s).2.past = s.past := rfl
@[simp] theorem read16_result (a : Word) (s : State) : (read16 a s).2.result = s.result := rfl
@[simp] theorem read16_cfg (a : Word) (s : State) : (read16 a s).2.cfg = s.cfg := rfl

/-! `read16ZP` writes events and nothing else. -/

@[simp] theorem read16ZP_a (b : Byte) (s : State) : (read16ZP b s).2.a = s.a := rfl
@[simp] theorem read16ZP_x (b : Byte) (s : State) : (read16ZP b s).2.x = s.x := rfl
@[simp] theorem read16ZP_y (b : Byte) (s : State) : (read16ZP b s).2.y = s.y := rfl
@[simp] theorem read16ZP_sp (b : Byte) (s : State) : (read16ZP b s).2.sp = s.sp := rfl
@[simp] theorem read16ZP_pc (b : Byte) (s : State) : (read16ZP b s).2.pc = s.pc := rfl
@[simp] theorem read16ZP_p (b : Byte) (s : State) : (read16ZP b s).2.p = s.p := rfl
@[simp] theorem read16ZP_nmiPending (b : Byte) (s : State) : (read16ZP b s).2.nmiPending = s.nmiPending := rfl
@[simp] theorem read16ZP_irqPending (b : Byte) (s : State) : (read16ZP b s).2.irqPending = s.irqPending := rfl
@[simp] theorem read16ZP_halted (b : Byte) (s : State) : (read16ZP b s).2.halted = s.halted := rfl
@[simp] theorem read16ZP_haltOpcode (b : Byte) (s : State) : (read16ZP b s).2.haltOpcode = s.haltOpcode := rfl
@[simp] theorem read16ZP_mem (b : Byte) (s : State) : (read16ZP b s).2.mem = s.mem := rfl
@[simp] theorem read16ZP_past (b : Byte) (s : State) : (read16ZP b s).2.past = s.past := rfl
@[simp] theorem read16ZP_result (b : Byte) (s : State) : (read16ZP b s).2.result = s.result := rfl
@[simp] theorem read16ZP_cfg (b : Byte) (s : State) : (read16ZP b s).2.cfg = s.cfg := rfl

/-! `busWrite` writes mem, events and nothing else. -/

@[simp] theorem busWrite_a (a : Word) (v : Byte) (s : State) : (busWrite a v s).a = s.a := rfl
@[simp] theorem busWrite_x (a : Word) (v : Byte) (s : State) : (busWrite a v s).x = s.x := rfl
@[simp] theorem busWrite_y (a : Word) (v : Byte) (s : State) : (busWrite a v s).y = s.y := rfl
@[simp] theorem busWrite_sp (a : Word) (v : Byte) (s : State) : (busWrite a v s).sp = s.sp := rfl
@[simp] theorem busWrite_pc (a : Word) (v : Byte) (s : State) : (busWrite a v s).pc = s.pc := rfl
@[simp] theorem busWrite_p (a : Word) (v : Byte) (s : State) : (busWrite a v s).p = s.p := rfl
@[simp] theorem busWrite_nmiPending (a : Word) (v : Byte) (s : State) : (busWrite a v s).nmiPending = s.nmiPending := rfl
@[simp] theorem busWrite_irqPending (a : Word) (v : Byte) (s : State) : (busWrite a v s).irqPending = s.irqPending := rfl
@[simp] theorem busWrite_halted (a : Word) (v : Byte) (s : State) : (busWrite a v s).halted = s.halted := rfl
@[simp] theorem busWrite_haltOpcode (a : Word) (v : Byte) (s : State) : (busWrite a v s).haltOpcode = s.haltOpcode := rfl
@[simp] theorem busWrite_past (a : Word) (v : Byte) (s : State) : (busWrite a v s).past = s.past := rfl
@[simp] theorem busWrite_result (a : Word) (v : Byte) (s : State) : (busWrite a v s).result = s.result := rfl
@[simp] theorem busWrite_cfg (a : Word) (v : Byte) (s : State) : (busWrite a v s).cfg = s.cfg := rfl

/-! `push` writes mem, events, sp and nothing else. -/

@[simp] theorem push_a (v : Byte) (s : State) : (push v s).a = s.a := rfl
@[simp] theorem push_x (v : Byte) (s : State) : (push v s).x = s.x := rfl
@[simp] theorem push_y (v : Byte) (s : State) : (push v s).y = s.y := rfl
@[simp] theorem push_pc (v : Byte) (s : State) : (push v s).pc = s.pc := rfl
@[simp] theorem push_p (v : Byte) (s : State) : (push v s).p = s.p := rfl
@[simp] theorem push_nmiPending (v : Byte) (s : State) : (push v s).nmiPending = s.nmiPending := rfl
@[simp] theorem push_irqPending (v : Byte) (s : State) : (push v s).irqPending = s.irqPending := rfl
@[simp] theorem push_halted (v : Byte) (s : State) : (push v s).halted = s.halted := rfl
@[simp] theorem push_haltOpcode (v : Byte) (s : State) : (push v s).haltOpcode = s.haltOpcode := rfl
@[simp] theorem push_past (v : Byte) (s : State) : (push v s).past = s.past := rfl
@[simp] theorem push_result (v : Byte) (s : State) : (push v s).result = s.result := rfl
@[simp] theorem push_cfg (v : Byte) (s : State) : (push v s).cfg = s.cfg := rfl

/-! `push16` writes mem, events, sp and nothing else. -/

@[simp] theorem push16_a (w : Word) (s : State) : (push16 w s).a = s.a := rfl
@[simp] theorem push16_x (w : Word) (s : State) : (push16 w s).x = s.x := rfl
@[simp] theorem push16_y (w : Word) (s : State) : (push16 w s).y = s.y := rfl
@[simp] theorem push16_pc (w : Word) (s : State) : (push16 w s).pc = s.pc := rfl
@[simp] theorem push16_p (w : Word) (s : State) : (push16 w s).p = s.p := rfl
@[simp] theorem push16_nmiPending (w : Word) (s : State) : (push16 w s).nmiPending = s.nmiPending := rfl
@[simp] theorem push16_irqPending (w : Word) (s : State) : (push16 w s).irqPending = s.irqPending := rfl
@[simp] theorem push16_halted (w : Word) (s : State) : (push16 w s).halted = s.halted := rfl
@[simp] theorem push16_haltOpcode (w : Word) (s : State) : (push16 w s).haltOpcode = s.haltOpcode := rfl
@[simp] theorem push16_past (w : Word) (s : State) : (push16 w s).past = s.past := rfl
@[simp] theorem push16_result (w : Word) (s : State) : (push16 w s).result = s.result := rfl
@[simp] theorem push16_cfg (w : Word) (s : State) : (push16 w s).cfg = s.cfg := rfl

/-! `pull` writes events, sp and nothing else. -/

@[simp] theorem pull_a (s : State) : (pull s).2.a = s.a := rfl
@[simp] theorem pull_x (s : State) : (pull s).2.x = s.x := rfl
@[simp] theorem pull_y (s : State) : (pull s).2.y = s.y := rfl
@[simp] theorem pull_pc (s : State) : (pull s).2.pc = s.pc := rfl
@[simp] theorem pull_p (s : State) : (pull s).2.p = s.p := rfl
@[simp] theorem pull_nmiPending (s : State) : (pull s).2.nmiPending = s.nmiPending := rfl
@[simp] theorem pull_irqPending (s : State) : (pull s).2.irqPending = s.irqPending := rfl
@[simp] theorem pull_halted (s : State) : (pull s).2.halted = s.halted := rfl
@[simp] theorem pull_haltOpcode (s : State) : (pull s).2.haltOpcode = s.haltOpcode := rfl
@[simp] theorem pull_mem (s : State) : (pull s).2.mem = s.mem := rfl
@[simp] theorem pull_past (s : State) : (pull s).2.past = s.past := rfl
@[simp] theorem pull_result (s : State) : (pull s).2.result = s.result := rfl
@[simp] theorem pull_cfg (s : State) : (pull s).2.cfg = s.cfg := rfl

/-! `pull16` writes events, sp and nothing else. -/

@[simp] theorem pull16_a (s : State) : (pull16 s).2.a = s.a := rfl
@[simp] theorem pull16_x (s : State) : (pull16 s).2.x = s.x := rfl
@[simp] theorem pull16_y (s : State) : (pull16 s).2.y = s.y := rfl
@[simp] theorem pull16_pc (s : State) : (pull16 s).2.pc = s.pc := rfl
@[simp] theorem pull16_p (s : State) : (pull16 s).2.p = s.p := rfl
@[simp] theorem pull16_nmiPending (s : State) : (pull16 s).2.nmiPending = s.nmiPending := rfl
@[simp] theorem pull16_irqPending (s : State) : (pull16 s).2.irqPending = s.irqPending := rfl
@[simp] theorem pull16_halted (s : State) : (pull16 s).2.halted = s.halted := rfl
@[simp] theorem pull16_haltOpcode (s : State) : (pull16 s).2.haltOpcode = s.haltOpcode := rfl
@[simp] theorem pull16_mem (s : State) : (pull16 s).2.mem = s.mem := rfl
@[simp] theorem pull16_past (s : State) : (pull16 s).2.past = s.past := rfl
@[simp] theorem pull16_result (s : State) : (pull16 s).2.result = s.result := rfl
@[simp] theorem pull16_cfg (s : State) : (pull16 s).2.cfg = s.cfg := rfl

/-! `advance` writes pc and nothing else. -/

@[simp] theorem advance_a (n : Nat) (s : State) : (advance n s).a = s.a := rfl
@[simp] theorem advance_x (n : Nat) (s : State) : (advance n s).x = s.x := rfl
@[simp] theorem advance_y (n : Nat) (s : State) : (advance n s).y = s.y := rfl
@[simp] theorem advance_sp (n : Nat) (s : State) : (advance n s).sp = s.sp := rfl
@[simp] theorem advance_p (n : Nat) (s : State) : (advance n s).p = s.p := rfl
@[simp] theorem advance_nmiPending (n : Nat) (s : State) : (advance n s).nmiPending = s.nmiPending := rfl
@[simp] theorem advance_irqPending (n : Nat) (s : State) : (advance n s).irqPending = s.irqPending := rfl
@[simp] theorem advance_halted (n : Nat) (s : State) : (advance n s).halted = s.halted := rfl
@[simp] theorem advance_haltOpcode (n : Nat) (s : State) : (advance n s).haltOpcode = s.haltOpcode := rfl
@[simp] theorem advance_mem (n : Nat) (s : State) : (advance n s).mem = s.mem := rfl
@[simp] theorem advance_events (n : Nat) (s : State) : (advance n s).events = s.events := rfl
@[simp] theorem advance_past (n : Nat) (s : State) : (advance n s).past = s.past := rfl
@[simp] theorem advance_result (n : Nat) (s : State) : (advance n s).result = s.result := rfl
@[simp] theorem advance_cfg (n : Nat) (s : State) : (advance n s).cfg = s.cfg := rfl

/-! `beginEvents` writes past, events and nothing else. -/

@[simp] theorem beginEvents_a (s : State) : (beginEvents s).a = s.a := rfl
@[simp] theorem beginEvents_x (s : State) : (beginEvents s).x = s.x := rfl
@[simp] theorem beginEvents_y (s : State) : (beginEvents s).y = s.y := rfl
@[simp] theorem beginEvents_sp (s : State) : (beginEvents s).sp = s.sp := rfl
@[simp] theorem beginEvents_pc (s : State) : (beginEvents s).pc = s.pc := rfl
@[simp] theorem beginEvents_p (s : State) : (beginEvents s).p = s.p := rfl
@[simp] theorem beginEvents_nmiPending (s : State) : (beginEvents s).nmiPending = s.nmiPending := rfl
@[simp] theorem beginEvents_irqPending (s : State) : (beginEvents s).irqPending = s.irqPending := rfl
@[simp] theorem beginEvents_halted (s : State) : (beginEvents s).halted = s.halted := rfl
@[simp] theorem beginEvents_haltOpcode (s : State) : (beginEvents s).haltOpcode = s.haltOpcode := rfl
@[simp] theorem beginEvents_mem (s : State) : (beginEvents s).mem = s.mem := rfl
@[simp] theorem beginEvents_result (s : State) : (beginEvents s).result = s.result := rfl
@[simp] theorem beginEvents_cfg (s : State) : (beginEvents s).cfg = s.cfg := rfl

end Sys2Proof.Machine
end

