-- ==== Sys2Proof/Laws/Ops.lean ====
section
/-! SUPPORT. One lemma for each shared operation that says everything it does; later proofs cite these. -/

namespace Sys2Proof.Machine

/-- A 16-bit address is its number. -/
theorem word_toNat_ne {a b : Word} (h : a ≠ b) : a.toNat ≠ b.toNat := fun he => h (BitVec.eq_of_toNat_eq he)

@[simp] theorem busRead_fst (a : Word) (s : State) : (busRead a s).1 = busValue a s := rfl

@[simp] theorem busRead_events (a : Word) (s : State) : (busRead a s).2.events = s.events ++ [.read a (busValue a s)] := rfl

/-- What the bus answers depends on the intercepts, the history and the image alone. -/
theorem busValue_congr {a : Word} {s t : State} (hc : t.cfg = s.cfg) (hm : t.mem = s.mem) (hh : history t = history s) :
    busValue a t = busValue a s := by
  simp [busValue, intercepted, State.byteAt, hc, hm, hh]

/-- A read outside `IO_MAP` answers the image's byte (R43). -/
theorem busValue_ram {a : Word} {s : State} (h : intercepted a s = false) : busValue a s = s.byteAt a := by
  simp [busValue, h]

/-- A bus read outside `IO_MAP`: the image's byte, and one event (R43). -/
theorem busRead_ram {a : Word} {s : State} (h : intercepted a s = false) :
    busRead a s = (s.byteAt a, { s with events := s.events ++ [.read a (s.byteAt a)] }) := by
  simp [busRead, busValue_ram h]

/-- Two bus reads outside `IO_MAP`. -/
theorem readPair_ram {a b : Word} {s : State} (ha : intercepted a s = false) (hb : intercepted b s = false) :
    readPair a b s = (wordOf (s.byteAt a) (s.byteAt b),
      { s with events := s.events ++ [.read a (s.byteAt a), .read b (s.byteAt b)] }) := by
  simp only [readPair, busRead_ram ha]
  rw [busRead_ram (s := { s with events := s.events ++ [.read a (s.byteAt a)] }) hb]
  simp [State.byteAt]

/-- Whether an address is intercepted depends on the parameters alone. -/
theorem intercepted_congr {a : Word} {s t : State} (h : t.cfg = s.cfg) : intercepted a t = intercepted a s := by
  simp [intercepted, h]

/-- The image after a write outside `IO_MAP`, at the address written. -/
theorem byteAt_busWrite_same {a : Word} {v : Byte} {s : State} (hwf : s.mem.wf = true) (h : intercepted a s = false) :
    (busWrite a v s).byteAt a = v := by
  simp [State.byteAt, busWrite, h, Memory.read_write_same hwf]

/-- The image after a write, at every other address. -/
theorem byteAt_busWrite_other {a c : Word} {v : Byte} {s : State} (h : c ≠ a) :
    (busWrite a v s).byteAt c = s.byteAt c := by
  by_cases hi : intercepted a s = true <;> simp [State.byteAt, busWrite, hi, Memory.read_write_other (word_toNat_ne h)]

/-- An intercepted write does not define the image's cell (R44). -/
theorem busWrite_mem_intercepted {a : Word} {v : Byte} {s : State} (h : intercepted a s = true) :
    (busWrite a v s).mem = s.mem := by
  simp [busWrite, h]

/-- A bus write changes the image and adds its event, and changes nothing else (R43). -/
theorem busWrite_eq (a : Word) (v : Byte) (s : State) :
    busWrite a v s = { s with mem := (busWrite a v s).mem, events := s.events ++ [.write a v] } := rfl

/-- Every bus write keeps the canonical form. -/
theorem busWrite_wf (a : Word) (v : Byte) {s : State} (h : s.mem.wf = true) : (busWrite a v s).mem.wf = true := by
  by_cases hi : intercepted a s = true
  · simpa [busWrite, hi] using h
  · simpa [busWrite, hi] using Memory.wf_write a v h

/-- `Push` as a bus write and a decrement. -/
theorem push_eq (v : Byte) (s : State) : push v s = { busWrite (stackAddr s.sp) v s with sp := s.sp - 1 } := rfl

@[simp] theorem push_sp (v : Byte) (s : State) : (push v s).sp = s.sp - 1 := rfl

@[simp] theorem pull_sp (s : State) : (pull s).2.sp = s.sp + 1 := rfl

@[simp] theorem push16_sp (w : Word) (s : State) : (push16 w s).sp = s.sp - 1 - 1 := rfl

@[simp] theorem pull16_sp (s : State) : (pull16 s).2.sp = s.sp + 1 + 1 := rfl

/-- `Pull` reads at the incremented stack pointer. -/
theorem pull_fst (s : State) : (pull s).1 = busValue (stackAddr (s.sp + 1)) s := by
  simp [pull, busValue, intercepted, history, State.byteAt]

/-- `Pull` from a slot outside `IO_MAP`. -/
theorem pull_ram {s : State} (h : intercepted (stackAddr (s.sp + 1)) s = false) :
    pull s = (s.byteAt (stackAddr (s.sp + 1)), { s with
      sp := s.sp + 1
      events := s.events ++ [.read (stackAddr (s.sp + 1)) (s.byteAt (stackAddr (s.sp + 1)))] }) :=
  busRead_ram (s := { s with sp := s.sp + 1 }) h

/-- `Pull16` from two slots outside `IO_MAP` (R52). -/
theorem pull16_ram {s : State} (h1 : intercepted (stackAddr (s.sp + 1)) s = false)
    (h2 : intercepted (stackAddr (s.sp + 1 + 1)) s = false) :
    pull16 s = (wordOf (s.byteAt (stackAddr (s.sp + 1))) (s.byteAt (stackAddr (s.sp + 1 + 1))), { s with
      sp := s.sp + 1 + 1
      events := s.events ++ [.read (stackAddr (s.sp + 1)) (s.byteAt (stackAddr (s.sp + 1))),
        .read (stackAddr (s.sp + 1 + 1)) (s.byteAt (stackAddr (s.sp + 1 + 1)))] }) := by
  simp only [pull16, pull_ram h1]
  rw [pull_ram (by exact h2)]
  simp only [List.append_assoc]
  rfl

/-- `Push16` writes its two slots and no other byte (R52). -/
theorem byteAt_push16_other {w : Word} {s : State} {a : Word} (h1 : a ≠ stackAddr s.sp) (h2 : a ≠ stackAddr (s.sp - 1)) :
    (push16 w s).byteAt a = s.byteAt a :=
  (byteAt_busWrite_other (s := push (hiByte w) s) h2).trans (byteAt_busWrite_other h1)

theorem push_wf (v : Byte) {s : State} (h : s.mem.wf = true) : (push v s).mem.wf = true := busWrite_wf _ v h

theorem push16_wf (w : Word) {s : State} (h : s.mem.wf = true) : (push16 w s).mem.wf = true := push_wf _ (push_wf _ h)

/-- Interrupt entry writes memory by its three pushes alone. -/
theorem enterInterrupt_mem (ret : Word) (b : Bool) (vec : Word) (s : State) :
    (enterInterrupt ret b vec s).mem = (push (packP b s.p) (push16 ret s)).mem := rfl

/-- Interrupt entry, as an update of the state before: SP, I, PC, memory and the event list alone. -/
theorem enterInterrupt_eq (ret : Word) (b : Bool) (vec : Word) (s : State) :
    enterInterrupt ret b vec s = { s with
      sp := s.sp - 1 - 1 - 1
      p := { s.p with i := true }
      pc := (enterInterrupt ret b vec s).pc
      mem := (push (packP b s.p) (push16 ret s)).mem
      events := (enterInterrupt ret b vec s).events } := rfl

/-- The event list while an interrupt entry has pushed and not yet read its vector. -/
theorem enterInterrupt_pushes (ret : Word) (b : Bool) (s : State) :
    (push (packP b s.p) (push16 ret s)).events
      = ((s.events ++ [.write (stackAddr s.sp) (hiByte ret)]) ++ [.write (stackAddr (s.sp - 1)) (loByte ret)])
        ++ [.write (stackAddr (s.sp - 1 - 1)) (packP b s.p)] := rfl

/-- Where interrupt entry goes: the pair of vector bytes, read after the pushes. -/
theorem enterInterrupt_pc (ret : Word) (b : Bool) (vec : Word) (s : State) :
    (enterInterrupt ret b vec s).pc
      = wordOf (busValue vec (push (packP b s.p) (push16 ret s)))
          (busValue (vec + 1) (busRead vec (push (packP b s.p) (push16 ret s))).2) := rfl

/-- The event list of an interrupt entry: three pushes, then the two vector reads. -/
theorem enterInterrupt_events (ret : Word) (b : Bool) (vec : Word) (s : State) :
    (enterInterrupt ret b vec s).events
      = ((push (packP b s.p) (push16 ret s)).events ++ [.read vec (busValue vec (push (packP b s.p) (push16 ret s)))])
        ++ [.read (vec + 1) (busValue (vec + 1) (busRead vec (push (packP b s.p) (push16 ret s))).2)] := rfl

/-- An interrupt entry leaves every byte outside its three slots alone. -/
theorem byteAt_enterInterrupt_other {ret : Word} {b : Bool} {vec : Word} {s : State} {a : Word}
    (h1 : a ≠ stackAddr s.sp) (h2 : a ≠ stackAddr (s.sp - 1)) (h3 : a ≠ stackAddr (s.sp - 1 - 1)) :
    (enterInterrupt ret b vec s).byteAt a = s.byteAt a :=
  (byteAt_busWrite_other (s := push16 ret s) h3).trans (byteAt_push16_other h1 h2)

/-- Interrupt entry keeps the canonical form. -/
theorem enterInterrupt_wf (ret : Word) (b : Bool) (vec : Word) {s : State} (h : s.mem.wf = true) :
    (enterInterrupt ret b vec s).mem.wf = true := by
  rw [enterInterrupt_mem]
  exact push_wf _ (push16_wf _ h)

/-- The interrupt sequence is an entry at PC with push-source bit 0, through the NMI vector when the NMI latch is set. -/
theorem interruptSequence_nmi {s : State} (h : s.nmiPending = true) :
    interruptSequence s
      = { enterInterrupt s.pc false nmiVector { s with nmiPending := false } with result := some (.ok 7) } := by
  simp [interruptSequence, h]

theorem interruptSequence_irq {s : State} (h : s.nmiPending = false) :
    interruptSequence s
      = { enterInterrupt s.pc false irqVector { s with irqPending := false } with result := some (.ok 7) } := by
  simp [interruptSequence, h]

/-- Every stack address lies in page 1 (R22). -/
theorem stackAddr_page (p : Byte) : (stackAddr p).toNat = 256 + p.toNat := by
  have := p.isLt
  simp [stackAddr, zext16]
  omega

/-- Different stack pointers name different addresses. -/
theorem stackAddr_inj {p q : Byte} (h : stackAddr p = stackAddr q) : p = q := by
  have := congrArg BitVec.toNat h
  rw [stackAddr_page, stackAddr_page] at this
  exact BitVec.eq_of_toNat_eq (by omega)

/-- Unpacking a packed status gives the flags back, whatever the push-source bit. -/
@[simp] theorem unpackP_packP (b : Bool) (p : Flags) : unpackP (packP b p) = p := by
  obtain ⟨c, z, i, d, v, n⟩ := p
  cases b <;> cases c <;> cases z <;> cases i <;> cases d <;> cases v <;> cases n <;> rfl

/-- A slot and the one below it are different bytes, the stack pointer's wrap included. -/
theorem stackAddr_ne_pred (p : Byte) : stackAddr p ≠ stackAddr (p - 1) := by
  intro h
  have e := congrArg BitVec.toNat (stackAddr_inj h)
  have hp := p.isLt
  rw [BitVec.toNat_sub, show (1 : Byte).toNat = 1 from rfl] at e
  omega

/-- A slot and the one two below it are different bytes. -/
theorem stackAddr_ne_pred_pred (p : Byte) : stackAddr p ≠ stackAddr (p - 1 - 1) := by
  intro h
  have e := congrArg BitVec.toNat (stackAddr_inj h)
  have hp := p.isLt
  rw [BitVec.toNat_sub, BitVec.toNat_sub, show (1 : Byte).toNat = 1 from rfl] at e
  omega

/-- `Push16` to two plain slots: the high byte in the upper, the low byte in the lower (R52). -/
theorem byteAt_push16_slots {w : Word} {s : State} (hwf : s.mem.wf = true) (h1 : intercepted (stackAddr s.sp) s = false)
    (h2 : intercepted (stackAddr (s.sp - 1)) s = false) :
    (push16 w s).byteAt (stackAddr s.sp) = hiByte w ∧ (push16 w s).byteAt (stackAddr (s.sp - 1)) = loByte w :=
  ⟨(byteAt_busWrite_other (s := push (hiByte w) s) (stackAddr_ne_pred _)).trans (byteAt_busWrite_same hwf h1),
    byteAt_busWrite_same (s := push (hiByte w) s) (push_wf _ hwf) h2⟩

/-- An interrupt entry with three plain slots: the return address and the status stand in them (R233). -/
theorem byteAt_enterInterrupt_slots {ret : Word} {b : Bool} {vec : Word} {s : State} (hwf : s.mem.wf = true)
    (h1 : intercepted (stackAddr s.sp) s = false) (h2 : intercepted (stackAddr (s.sp - 1)) s = false)
    (h3 : intercepted (stackAddr (s.sp - 1 - 1)) s = false) :
    (enterInterrupt ret b vec s).byteAt (stackAddr s.sp) = hiByte ret
      ∧ (enterInterrupt ret b vec s).byteAt (stackAddr (s.sp - 1)) = loByte ret
      ∧ (enterInterrupt ret b vec s).byteAt (stackAddr (s.sp - 1 - 1)) = packP b s.p :=
  have hp := byteAt_push16_slots (w := ret) hwf h1 h2
  ⟨(byteAt_busWrite_other (s := push16 ret s) (stackAddr_ne_pred_pred _)).trans hp.1,
    (byteAt_busWrite_other (s := push16 ret s) (stackAddr_ne_pred _)).trans hp.2,
    byteAt_busWrite_same (s := push16 ret s) (push16_wf _ hwf) h3⟩

end Sys2Proof.Machine
end

