-- ==== Sys2Proof/Laws/Operands.lean ====
section
/-! SUPPORT. The resolver and the operand access: all of them leave every field but the event list alone. -/

namespace Sys2Proof.Machine

/-- Two bus reads change the event list alone. -/
theorem readPair_snd (a b : Word) (s : State) :
    (readPair a b s).2 = { s with events := (readPair a b s).2.events } := rfl

/-- The resolver changes the event list alone (R80). -/
theorem resolve_snd (m : MemMode) (s : State) : (resolve m s).2 = { s with events := (resolve m s).2.events } := by
  cases m <;> rfl

/-- Reading an operand changes the event list alone. -/
theorem readSource_snd (src : Source) (s : State) :
    (readSource src s).2 = { s with events := (readSource src s).2.events } := by
  cases src with
  | imm v => rfl
  | mem m => cases m <;> rfl

/-- A memory operand is one bus read at EA after the resolver's reads (R104). -/
theorem readSource_mem_fst (m : MemMode) (s : State) :
    (readSource (.mem m) s).1 = busValue (effectiveAddress m s) (resolve m s).2 := rfl

theorem readSource_mem_events (m : MemMode) (s : State) :
    (readSource (.mem m) s).2.events
      = (resolve m s).2.events ++ [.read (effectiveAddress m s) (readSource (.mem m) s).1] := rfl

/-- The image after a write does not depend on the event list. -/
theorem busWrite_mem_events (a : Word) (v : Byte) (s : State) (evs : List BusEvent) :
    (busWrite a v { s with events := evs }).mem = (busWrite a v s).mem := rfl

/-- A store, as an update of the state before the resolver ran (R105). -/
theorem writeMem_eq (m : MemMode) (v : Byte) (s : State) :
    writeMem m v s = { s with
      mem := (busWrite (effectiveAddress m s) v s).mem
      events := (resolve m s).2.events ++ [.write (effectiveAddress m s) v] } := by
  cases m <;> rfl

end Sys2Proof.Machine
end

