-- ==== Sys2Proof/Laws/Families.lean ====
section
/-! SUPPORT. One lemma for each shared operation of the families: the whole next state as one update of the state before. -/

namespace Sys2Proof.Machine

theorem adc_eq (src : Source) (s : State) :
    adc src s = { s with
      a := (addWithCarry s.a (readSource src s).1 s.p.c).res
      p := sumFlags (addWithCarry s.a (readSource src s).1 s.p.c) s.p
      pc := s.pc + 1 + BitVec.ofNat 16 (formLen src.form)
      events := (readSource src s).2.events } := by
  simp only [adc, advance]
  rw [readSource_snd]

theorem sbc_eq (src : Source) (s : State) :
    sbc src s = { s with
      a := (subWithBorrow s.a (readSource src s).1 s.p.c).res
      p := sumFlags (subWithBorrow s.a (readSource src s).1 s.p.c) s.p
      pc := s.pc + 1 + BitVec.ofNat 16 (formLen src.form)
      events := (readSource src s).2.events } := by
  simp only [sbc, advance]
  rw [readSource_snd]

theorem compareWith_eq (reg : Byte) (src : Source) (s : State) :
    compareWith reg src s = { s with
      p := compareFlags reg (readSource src s).1 s.p
      pc := s.pc + 1 + BitVec.ofNat 16 (formLen src.form)
      events := (readSource src s).2.events } := by
  simp only [compareWith, advance]
  rw [readSource_snd]

theorem logic_eq (f : Byte → Byte → Byte) (src : Source) (s : State) :
    logic f src s = { s with
      a := f s.a (readSource src s).1
      p := setZN (f s.a (readSource src s).1) s.p
      pc := s.pc + 1 + BitVec.ofNat 16 (formLen src.form)
      events := (readSource src s).2.events } := by
  simp only [logic, advance]
  rw [readSource_snd]

theorem bitTest_eq (m : MemMode) (s : State) :
    bitTest m s = { s with
      p := bitFlags s.a (readSource (.mem m) s).1 s.p
      pc := s.pc + 1 + BitVec.ofNat 16 (memLen m)
      events := (readSource (.mem m) s).2.events } := by
  simp only [bitTest, advance]
  rw [readSource_snd]

theorem loadA_eq (src : Source) (s : State) :
    loadA src s = { s with
      a := (readSource src s).1
      p := setZN (readSource src s).1 s.p
      pc := s.pc + 1 + BitVec.ofNat 16 (formLen src.form)
      events := (readSource src s).2.events } := by
  simp only [loadA, advance]
  rw [readSource_snd]

theorem loadX_eq (src : Source) (s : State) :
    loadX src s = { s with
      x := (readSource src s).1
      p := setZN (readSource src s).1 s.p
      pc := s.pc + 1 + BitVec.ofNat 16 (formLen src.form)
      events := (readSource src s).2.events } := by
  simp only [loadX, advance]
  rw [readSource_snd]

theorem loadY_eq (src : Source) (s : State) :
    loadY src s = { s with
      y := (readSource src s).1
      p := setZN (readSource src s).1 s.p
      pc := s.pc + 1 + BitVec.ofNat 16 (formLen src.form)
      events := (readSource src s).2.events } := by
  simp only [loadY, advance]
  rw [readSource_snd]

theorem store_eq (v : Byte) (m : MemMode) (s : State) :
    store v m s = { s with
      mem := (busWrite (effectiveAddress m s) v s).mem
      pc := s.pc + 1 + BitVec.ofNat 16 (memLen m)
      events := (resolve m s).2.events ++ [.write (effectiveAddress m s) v] } := by
  simp only [store, advance, writeMem_eq]

theorem stepCell_eq (f : Byte → Byte) (m : MemMode) (s : State) :
    stepCell f m s = { s with
      mem := (busWrite (effectiveAddress m s) (f (readSource (.mem m) s).1) s).mem
      p := setZN (f (readSource (.mem m) s).1) s.p
      pc := s.pc + 1 + BitVec.ofNat 16 (memLen m)
      events := (readSource (.mem m) s).2.events
        ++ [.write (effectiveAddress m s) (f (readSource (.mem m) s).1)] } := by
  cases m <;> rfl

theorem shift_acc_eq (f : Byte → Bool → Byte × Bool) (s : State) :
    shift f .acc s = { s with
      a := (f s.a s.p.c).1
      p := shiftFlags (f s.a s.p.c).1 (f s.a s.p.c).2 s.p
      pc := s.pc + 1 + BitVec.ofNat 16 0 } := rfl

theorem shift_mem_eq (f : Byte → Bool → Byte × Bool) (m : MemMode) (s : State) :
    shift f (.mem m) s = { s with
      mem := (busWrite (effectiveAddress m s) (f (readSource (.mem m) s).1 s.p.c).1 s).mem
      p := shiftFlags (f (readSource (.mem m) s).1 s.p.c).1 (f (readSource (.mem m) s).1 s.p.c).2 s.p
      pc := s.pc + 1 + BitVec.ofNat 16 (memLen m)
      events := (readSource (.mem m) s).2.events
        ++ [.write (effectiveAddress m s) (f (readSource (.mem m) s).1 s.p.c).1] } := by
  cases m <;> rfl

theorem branch_eq (cond : Bool) (off : Byte) (s : State) :
    branch cond off s = { s with
      pc := if cond then s.pc + 2 + sext16 off else s.pc + 1 + BitVec.ofNat 16 1 } := by
  cases cond <;> rfl

theorem jump_eq (m : MemMode) (s : State) :
    jump m s = { s with pc := effectiveAddress m s, events := (resolve m s).2.events } := by
  cases m <;> rfl

theorem jumpSubroutine_eq (w : Word) (s : State) : jumpSubroutine w s = { push16 (s.pc + 2) s with pc := w } := rfl

/-- What a step that goes on did: an interrupt sequence, or one fetched instruction and the return of its count. -/
theorem step_cases {s t : State} (h : step s = .next t) :
    s.halted = false ∧
      ((takesInterrupt s = true ∧ t = interruptSequence (beginEvents s))
        ∨ (takesInterrupt s = false ∧ ∃ u : State,
            exec (fetch (beginEvents s)).1 (fetch (beginEvents s)).2 = .next u
              ∧ t = retire (fetch (beginEvents s)).1 u)) := by
  unfold step at h
  cases hh : s.halted with
  | true => simp [hh] at h
  | false =>
    refine ⟨rfl, ?_⟩
    cases ht : takesInterrupt s with
    | true =>
      simp only [hh, ht, Bool.false_eq_true, if_false, if_true, Host.Outcome.next.injEq] at h
      exact .inl ⟨rfl, h.symm⟩
    | false =>
      simp only [hh, ht, Bool.false_eq_true, if_false, runInstruction] at h
      cases he : exec (fetch (beginEvents s)).1 (fetch (beginEvents s)).2 with
      | next u => rw [he] at h; exact .inr ⟨rfl, u, rfl, (by simpa using h.symm)⟩
      | fault r => rw [he] at h; simp at h
      | refused r => rw [he] at h; simp at h

/-- The reads of no address are none. -/
@[simp] theorem busReads_nil (s : State) : busReads [] s = [] := rfl

/-- One read after another: the rest are made in the state after the first. -/
@[simp] theorem busReads_cons (a : Word) (rest : List Word) (s : State) :
    busReads (a :: rest) s = .read a (busValue a s) :: busReads rest (busRead a s).2 := rfl

/-- `busRead` adds the one read. -/
theorem busRead_snd_eq (a : Word) (s : State) : (busRead a s).2 = { s with events := s.events ++ busReads [a] s } := rfl

/-- `readPair` adds the two reads. -/
theorem readPair_snd_eq (a b : Word) (s : State) :
    (readPair a b s).2 = { s with events := s.events ++ busReads [a, b] s } := by
  simp [readPair, busRead]

/-- A one-byte instruction is fetched at PC. -/
theorem fetchAddrs_one {i : Instr} (s : State) (h : formLen i.form = 0) : fetchAddrs i s = [s.pc] := by
  simp [fetchAddrs, h]

/-- A two-byte instruction is fetched at PC and PC + 1. -/
theorem fetchAddrs_two {i : Instr} (s : State) (h : formLen i.form = 1) : fetchAddrs i s = [s.pc, s.pc + 1] := by
  simp [fetchAddrs, h, List.range_succ]

/-- A three-byte instruction is fetched at PC, PC + 1 and PC + 2. -/
theorem fetchAddrs_three {i : Instr} (s : State) (h : formLen i.form = 2) :
    fetchAddrs i s = [s.pc, s.pc + 1, s.pc + 2] := by
  simp [fetchAddrs, h, List.range_succ]

/-- The return of a count writes the result alone. -/
theorem retire_eq (i : Instr) (s : State) : retire i s = { s with result := (retire i s).result } := by
  unfold retire
  split <;> rfl

end Sys2Proof.Machine
end

