-- ==== Sys2Proof/Laws/PerInstr.lean ====
section
/-! SUPPORT. Per instruction: the bytes the encoder writes for it are read back by the decoder as that instruction, with
nothing left over. -/

namespace Sys2Proof.Laws.Encoding

/-- The decoder reads the instruction's own bytes back. -/
def Statement (i : Instr) : Prop := WellFormed i = true → decode (encode i) = .ok (i, [])

theorem adcImm (v : Byte) : Statement (.adcImm v) := fun _ => rfl
theorem adcZp (b : Byte) : Statement (.adcZp b) := fun _ => rfl
theorem adcZpX (b : Byte) : Statement (.adcZpX b) := fun _ => rfl
theorem adcAbs (w : Word) : Statement (.adcAbs w) := fun _ => by simpa [encode, Instr.form, Instr.view, Form.bytes, MemMode.bytes, opcode] using decode_f3 rfl w
theorem adcAbsX (w : Word) : Statement (.adcAbsX w) := fun _ => by simpa [encode, Instr.form, Instr.view, Form.bytes, MemMode.bytes, opcode] using decode_f3 rfl w
theorem adcAbsY (w : Word) : Statement (.adcAbsY w) := fun _ => by simpa [encode, Instr.form, Instr.view, Form.bytes, MemMode.bytes, opcode] using decode_f3 rfl w
theorem adcIndX (b : Byte) : Statement (.adcIndX b) := fun _ => rfl
theorem adcIndY (b : Byte) : Statement (.adcIndY b) := fun _ => rfl
theorem sbcImm (v : Byte) : Statement (.sbcImm v) := fun _ => rfl
theorem sbcZp (b : Byte) : Statement (.sbcZp b) := fun _ => rfl
theorem sbcZpX (b : Byte) : Statement (.sbcZpX b) := fun _ => rfl
theorem sbcAbs (w : Word) : Statement (.sbcAbs w) := fun _ => by simpa [encode, Instr.form, Instr.view, Form.bytes, MemMode.bytes, opcode] using decode_f3 rfl w
theorem sbcAbsX (w : Word) : Statement (.sbcAbsX w) := fun _ => by simpa [encode, Instr.form, Instr.view, Form.bytes, MemMode.bytes, opcode] using decode_f3 rfl w
theorem sbcAbsY (w : Word) : Statement (.sbcAbsY w) := fun _ => by simpa [encode, Instr.form, Instr.view, Form.bytes, MemMode.bytes, opcode] using decode_f3 rfl w
theorem sbcIndX (b : Byte) : Statement (.sbcIndX b) := fun _ => rfl
theorem sbcIndY (b : Byte) : Statement (.sbcIndY b) := fun _ => rfl
theorem cmpImm (v : Byte) : Statement (.cmpImm v) := fun _ => rfl
theorem cmpZp (b : Byte) : Statement (.cmpZp b) := fun _ => rfl
theorem cmpZpX (b : Byte) : Statement (.cmpZpX b) := fun _ => rfl
theorem cmpAbs (w : Word) : Statement (.cmpAbs w) := fun _ => by simpa [encode, Instr.form, Instr.view, Form.bytes, MemMode.bytes, opcode] using decode_f3 rfl w
theorem cmpAbsX (w : Word) : Statement (.cmpAbsX w) := fun _ => by simpa [encode, Instr.form, Instr.view, Form.bytes, MemMode.bytes, opcode] using decode_f3 rfl w
theorem cmpAbsY (w : Word) : Statement (.cmpAbsY w) := fun _ => by simpa [encode, Instr.form, Instr.view, Form.bytes, MemMode.bytes, opcode] using decode_f3 rfl w
theorem cmpIndX (b : Byte) : Statement (.cmpIndX b) := fun _ => rfl
theorem cmpIndY (b : Byte) : Statement (.cmpIndY b) := fun _ => rfl
theorem cpxImm (v : Byte) : Statement (.cpxImm v) := fun _ => rfl
theorem cpxZp (b : Byte) : Statement (.cpxZp b) := fun _ => rfl
theorem cpxAbs (w : Word) : Statement (.cpxAbs w) := fun _ => by simpa [encode, Instr.form, Instr.view, Form.bytes, MemMode.bytes, opcode] using decode_f3 rfl w
theorem cpyImm (v : Byte) : Statement (.cpyImm v) := fun _ => rfl
theorem cpyZp (b : Byte) : Statement (.cpyZp b) := fun _ => rfl
theorem cpyAbs (w : Word) : Statement (.cpyAbs w) := fun _ => by simpa [encode, Instr.form, Instr.view, Form.bytes, MemMode.bytes, opcode] using decode_f3 rfl w
theorem aslA : Statement .aslA := fun _ => rfl
theorem aslZp (b : Byte) : Statement (.aslZp b) := fun _ => rfl
theorem aslZpX (b : Byte) : Statement (.aslZpX b) := fun _ => rfl
theorem aslAbs (w : Word) : Statement (.aslAbs w) := fun _ => by simpa [encode, Instr.form, Instr.view, Form.bytes, MemMode.bytes, opcode] using decode_f3 rfl w
theorem aslAbsX (w : Word) : Statement (.aslAbsX w) := fun _ => by simpa [encode, Instr.form, Instr.view, Form.bytes, MemMode.bytes, opcode] using decode_f3 rfl w
theorem lsrA : Statement .lsrA := fun _ => rfl
theorem lsrZp (b : Byte) : Statement (.lsrZp b) := fun _ => rfl
theorem lsrZpX (b : Byte) : Statement (.lsrZpX b) := fun _ => rfl
theorem lsrAbs (w : Word) : Statement (.lsrAbs w) := fun _ => by simpa [encode, Instr.form, Instr.view, Form.bytes, MemMode.bytes, opcode] using decode_f3 rfl w
theorem lsrAbsX (w : Word) : Statement (.lsrAbsX w) := fun _ => by simpa [encode, Instr.form, Instr.view, Form.bytes, MemMode.bytes, opcode] using decode_f3 rfl w
theorem rolA : Statement .rolA := fun _ => rfl
theorem rolZp (b : Byte) : Statement (.rolZp b) := fun _ => rfl
theorem rolZpX (b : Byte) : Statement (.rolZpX b) := fun _ => rfl
theorem rolAbs (w : Word) : Statement (.rolAbs w) := fun _ => by simpa [encode, Instr.form, Instr.view, Form.bytes, MemMode.bytes, opcode] using decode_f3 rfl w
theorem rolAbsX (w : Word) : Statement (.rolAbsX w) := fun _ => by simpa [encode, Instr.form, Instr.view, Form.bytes, MemMode.bytes, opcode] using decode_f3 rfl w
theorem rorA : Statement .rorA := fun _ => rfl
theorem rorZp (b : Byte) : Statement (.rorZp b) := fun _ => rfl
theorem rorZpX (b : Byte) : Statement (.rorZpX b) := fun _ => rfl
theorem rorAbs (w : Word) : Statement (.rorAbs w) := fun _ => by simpa [encode, Instr.form, Instr.view, Form.bytes, MemMode.bytes, opcode] using decode_f3 rfl w
theorem rorAbsX (w : Word) : Statement (.rorAbsX w) := fun _ => by simpa [encode, Instr.form, Instr.view, Form.bytes, MemMode.bytes, opcode] using decode_f3 rfl w
theorem incZp (b : Byte) : Statement (.incZp b) := fun _ => rfl
theorem incZpX (b : Byte) : Statement (.incZpX b) := fun _ => rfl
theorem incAbs (w : Word) : Statement (.incAbs w) := fun _ => by simpa [encode, Instr.form, Instr.view, Form.bytes, MemMode.bytes, opcode] using decode_f3 rfl w
theorem incAbsX (w : Word) : Statement (.incAbsX w) := fun _ => by simpa [encode, Instr.form, Instr.view, Form.bytes, MemMode.bytes, opcode] using decode_f3 rfl w
theorem decZp (b : Byte) : Statement (.decZp b) := fun _ => rfl
theorem decZpX (b : Byte) : Statement (.decZpX b) := fun _ => rfl
theorem decAbs (w : Word) : Statement (.decAbs w) := fun _ => by simpa [encode, Instr.form, Instr.view, Form.bytes, MemMode.bytes, opcode] using decode_f3 rfl w
theorem decAbsX (w : Word) : Statement (.decAbsX w) := fun _ => by simpa [encode, Instr.form, Instr.view, Form.bytes, MemMode.bytes, opcode] using decode_f3 rfl w
theorem inx : Statement .inx := fun _ => rfl
theorem iny : Statement .iny := fun _ => rfl
theorem dex : Statement .dex := fun _ => rfl
theorem dey : Statement .dey := fun _ => rfl
theorem andImm (v : Byte) : Statement (.andImm v) := fun _ => rfl
theorem andZp (b : Byte) : Statement (.andZp b) := fun _ => rfl
theorem andZpX (b : Byte) : Statement (.andZpX b) := fun _ => rfl
theorem andAbs (w : Word) : Statement (.andAbs w) := fun _ => by simpa [encode, Instr.form, Instr.view, Form.bytes, MemMode.bytes, opcode] using decode_f3 rfl w
theorem andAbsX (w : Word) : Statement (.andAbsX w) := fun _ => by simpa [encode, Instr.form, Instr.view, Form.bytes, MemMode.bytes, opcode] using decode_f3 rfl w
theorem andAbsY (w : Word) : Statement (.andAbsY w) := fun _ => by simpa [encode, Instr.form, Instr.view, Form.bytes, MemMode.bytes, opcode] using decode_f3 rfl w
theorem andIndX (b : Byte) : Statement (.andIndX b) := fun _ => rfl
theorem andIndY (b : Byte) : Statement (.andIndY b) := fun _ => rfl
theorem oraImm (v : Byte) : Statement (.oraImm v) := fun _ => rfl
theorem oraZp (b : Byte) : Statement (.oraZp b) := fun _ => rfl
theorem oraZpX (b : Byte) : Statement (.oraZpX b) := fun _ => rfl
theorem oraAbs (w : Word) : Statement (.oraAbs w) := fun _ => by simpa [encode, Instr.form, Instr.view, Form.bytes, MemMode.bytes, opcode] using decode_f3 rfl w
theorem oraAbsX (w : Word) : Statement (.oraAbsX w) := fun _ => by simpa [encode, Instr.form, Instr.view, Form.bytes, MemMode.bytes, opcode] using decode_f3 rfl w
theorem oraAbsY (w : Word) : Statement (.oraAbsY w) := fun _ => by simpa [encode, Instr.form, Instr.view, Form.bytes, MemMode.bytes, opcode] using decode_f3 rfl w
theorem oraIndX (b : Byte) : Statement (.oraIndX b) := fun _ => rfl
theorem oraIndY (b : Byte) : Statement (.oraIndY b) := fun _ => rfl
theorem eorImm (v : Byte) : Statement (.eorImm v) := fun _ => rfl
theorem eorZp (b : Byte) : Statement (.eorZp b) := fun _ => rfl
theorem eorZpX (b : Byte) : Statement (.eorZpX b) := fun _ => rfl
theorem eorAbs (w : Word) : Statement (.eorAbs w) := fun _ => by simpa [encode, Instr.form, Instr.view, Form.bytes, MemMode.bytes, opcode] using decode_f3 rfl w
theorem eorAbsX (w : Word) : Statement (.eorAbsX w) := fun _ => by simpa [encode, Instr.form, Instr.view, Form.bytes, MemMode.bytes, opcode] using decode_f3 rfl w
theorem eorAbsY (w : Word) : Statement (.eorAbsY w) := fun _ => by simpa [encode, Instr.form, Instr.view, Form.bytes, MemMode.bytes, opcode] using decode_f3 rfl w
theorem eorIndX (b : Byte) : Statement (.eorIndX b) := fun _ => rfl
theorem eorIndY (b : Byte) : Statement (.eorIndY b) := fun _ => rfl
theorem bitZp (b : Byte) : Statement (.bitZp b) := fun _ => rfl
theorem bitAbs (w : Word) : Statement (.bitAbs w) := fun _ => by simpa [encode, Instr.form, Instr.view, Form.bytes, MemMode.bytes, opcode] using decode_f3 rfl w
theorem ldaImm (v : Byte) : Statement (.ldaImm v) := fun _ => rfl
theorem ldaZp (b : Byte) : Statement (.ldaZp b) := fun _ => rfl
theorem ldaZpX (b : Byte) : Statement (.ldaZpX b) := fun _ => rfl
theorem ldaAbs (w : Word) : Statement (.ldaAbs w) := fun _ => by simpa [encode, Instr.form, Instr.view, Form.bytes, MemMode.bytes, opcode] using decode_f3 rfl w
theorem ldaAbsX (w : Word) : Statement (.ldaAbsX w) := fun _ => by simpa [encode, Instr.form, Instr.view, Form.bytes, MemMode.bytes, opcode] using decode_f3 rfl w
theorem ldaAbsY (w : Word) : Statement (.ldaAbsY w) := fun _ => by simpa [encode, Instr.form, Instr.view, Form.bytes, MemMode.bytes, opcode] using decode_f3 rfl w
theorem ldaIndX (b : Byte) : Statement (.ldaIndX b) := fun _ => rfl
theorem ldaIndY (b : Byte) : Statement (.ldaIndY b) := fun _ => rfl
theorem ldxImm (v : Byte) : Statement (.ldxImm v) := fun _ => rfl
theorem ldxZp (b : Byte) : Statement (.ldxZp b) := fun _ => rfl
theorem ldxZpY (b : Byte) : Statement (.ldxZpY b) := fun _ => rfl
theorem ldxAbs (w : Word) : Statement (.ldxAbs w) := fun _ => by simpa [encode, Instr.form, Instr.view, Form.bytes, MemMode.bytes, opcode] using decode_f3 rfl w
theorem ldxAbsY (w : Word) : Statement (.ldxAbsY w) := fun _ => by simpa [encode, Instr.form, Instr.view, Form.bytes, MemMode.bytes, opcode] using decode_f3 rfl w
theorem ldyImm (v : Byte) : Statement (.ldyImm v) := fun _ => rfl
theorem ldyZp (b : Byte) : Statement (.ldyZp b) := fun _ => rfl
theorem ldyZpX (b : Byte) : Statement (.ldyZpX b) := fun _ => rfl
theorem ldyAbs (w : Word) : Statement (.ldyAbs w) := fun _ => by simpa [encode, Instr.form, Instr.view, Form.bytes, MemMode.bytes, opcode] using decode_f3 rfl w
theorem ldyAbsX (w : Word) : Statement (.ldyAbsX w) := fun _ => by simpa [encode, Instr.form, Instr.view, Form.bytes, MemMode.bytes, opcode] using decode_f3 rfl w
theorem staZp (b : Byte) : Statement (.staZp b) := fun _ => rfl
theorem staZpX (b : Byte) : Statement (.staZpX b) := fun _ => rfl
theorem staAbs (w : Word) : Statement (.staAbs w) := fun _ => by simpa [encode, Instr.form, Instr.view, Form.bytes, MemMode.bytes, opcode] using decode_f3 rfl w
theorem staAbsX (w : Word) : Statement (.staAbsX w) := fun _ => by simpa [encode, Instr.form, Instr.view, Form.bytes, MemMode.bytes, opcode] using decode_f3 rfl w
theorem staAbsY (w : Word) : Statement (.staAbsY w) := fun _ => by simpa [encode, Instr.form, Instr.view, Form.bytes, MemMode.bytes, opcode] using decode_f3 rfl w
theorem staIndX (b : Byte) : Statement (.staIndX b) := fun _ => rfl
theorem staIndY (b : Byte) : Statement (.staIndY b) := fun _ => rfl
theorem stxZp (b : Byte) : Statement (.stxZp b) := fun _ => rfl
theorem stxZpY (b : Byte) : Statement (.stxZpY b) := fun _ => rfl
theorem stxAbs (w : Word) : Statement (.stxAbs w) := fun _ => by simpa [encode, Instr.form, Instr.view, Form.bytes, MemMode.bytes, opcode] using decode_f3 rfl w
theorem styZp (b : Byte) : Statement (.styZp b) := fun _ => rfl
theorem styZpX (b : Byte) : Statement (.styZpX b) := fun _ => rfl
theorem styAbs (w : Word) : Statement (.styAbs w) := fun _ => by simpa [encode, Instr.form, Instr.view, Form.bytes, MemMode.bytes, opcode] using decode_f3 rfl w
theorem bcc (off : Byte) : Statement (.bcc off) := fun _ => rfl
theorem bcs (off : Byte) : Statement (.bcs off) := fun _ => rfl
theorem beq (off : Byte) : Statement (.beq off) := fun _ => rfl
theorem bne (off : Byte) : Statement (.bne off) := fun _ => rfl
theorem bmi (off : Byte) : Statement (.bmi off) := fun _ => rfl
theorem bpl (off : Byte) : Statement (.bpl off) := fun _ => rfl
theorem bvc (off : Byte) : Statement (.bvc off) := fun _ => rfl
theorem bvs (off : Byte) : Statement (.bvs off) := fun _ => rfl
theorem jmpAbs (w : Word) : Statement (.jmpAbs w) := fun _ => by simpa [encode, Instr.form, Instr.view, Form.bytes, MemMode.bytes, opcode] using decode_f3 rfl w
theorem jmpInd (w : Word) : Statement (.jmpInd w) := fun _ => by simpa [encode, Instr.form, Instr.view, Form.bytes, MemMode.bytes, opcode] using decode_f3 rfl w
theorem jsr (w : Word) : Statement (.jsr w) := fun _ => by simpa [encode, Instr.form, Instr.view, Form.bytes, MemMode.bytes, opcode] using decode_f3 rfl w
theorem rts : Statement .rts := fun _ => rfl
theorem pha : Statement .pha := fun _ => rfl
theorem php : Statement .php := fun _ => rfl
theorem pla : Statement .pla := fun _ => rfl
theorem plp : Statement .plp := fun _ => rfl
theorem tax : Statement .tax := fun _ => rfl
theorem tay : Statement .tay := fun _ => rfl
theorem txa : Statement .txa := fun _ => rfl
theorem tya : Statement .tya := fun _ => rfl
theorem tsx : Statement .tsx := fun _ => rfl
theorem txs : Statement .txs := fun _ => rfl
theorem brk : Statement .brk := fun _ => rfl
theorem rti : Statement .rti := fun _ => rfl
theorem clc : Statement .clc := fun _ => rfl
theorem sec : Statement .sec := fun _ => rfl
theorem cli : Statement .cli := fun _ => rfl
theorem sei : Statement .sei := fun _ => rfl
theorem clv : Statement .clv := fun _ => rfl
theorem cld : Statement .cld := fun _ => rfl
theorem sed : Statement .sed := fun _ => rfl
theorem nop : Statement .nop := fun _ => rfl

theorem invalid (op : Byte) : Statement (.invalid op) := fun h => by
  simpa [encode, Instr.form, Instr.view, Form.bytes, opcode] using decode_f1 (lookup_invalid h)

end Sys2Proof.Laws.Encoding
end

