-- ==== Sys2Proof/Tests/Slice0.lean ====
section
/-! SUPPORT. The model's own tests: each word's decoding, one step of the spec's vectors, and a witness for the hypotheses
of every statement that has some. -/

namespace Sys2Proof.Tests

open Sys2Proof Sys2Proof.Machine

/-! ### Well-formedness -/

/-- The one check: `invalid` with a documented opcode (NOP here) is ill formed, and with a byte of R64 it is not. -/
theorem test_wellformed_refuses_documented_opcode : WellFormed (.invalid 0xEA) = false ∧ WellFormed (.invalid 0x02) = true := by
  decide

/-! ### Decoding: the words are written out from the encodings of spec/opcode_table.json, the operand byte 0x96 and the
operand word 0x12F4 -/

def decoded (words : List (Nat × Nat)) : List Instr := words.filterMap fun w => decodeTableWord w.1 w.2

theorem test_decode_arith :
    decoded [(16, 0b10010110_01100001), (16, 0b10010110_01100101), (16, 0b10010110_01101001),
      (24, 0b00010010_11110100_01101101), (16, 0b10010110_01110001), (16, 0b10010110_01110101),
      (24, 0b00010010_11110100_01111001), (24, 0b00010010_11110100_01111101), (16, 0b10010110_11000000),
      (16, 0b10010110_11000001), (16, 0b10010110_11000100), (16, 0b10010110_11000101),
      (16, 0b10010110_11001001), (24, 0b00010010_11110100_11001100), (24, 0b00010010_11110100_11001101),
      (16, 0b10010110_11010001), (16, 0b10010110_11010101), (24, 0b00010010_11110100_11011001),
      (24, 0b00010010_11110100_11011101), (16, 0b10010110_11100000), (16, 0b10010110_11100001),
      (16, 0b10010110_11100100), (16, 0b10010110_11100101), (16, 0b10010110_11101001),
      (24, 0b00010010_11110100_11101100), (24, 0b00010010_11110100_11101101), (16, 0b10010110_11110001),
      (16, 0b10010110_11110101), (24, 0b00010010_11110100_11111001), (24, 0b00010010_11110100_11111101)]
    = [.adcIndX 0x96, .adcZp 0x96, .adcImm 0x96, .adcAbs 0x12F4, .adcIndY 0x96, .adcZpX 0x96,
      .adcAbsY 0x12F4, .adcAbsX 0x12F4, .cpyImm 0x96, .cmpIndX 0x96, .cpyZp 0x96, .cmpZp 0x96,
      .cmpImm 0x96, .cpyAbs 0x12F4, .cmpAbs 0x12F4, .cmpIndY 0x96, .cmpZpX 0x96, .cmpAbsY 0x12F4,
      .cmpAbsX 0x12F4, .cpxImm 0x96, .sbcIndX 0x96, .cpxZp 0x96, .sbcZp 0x96, .sbcImm 0x96,
      .cpxAbs 0x12F4, .sbcAbs 0x12F4, .sbcIndY 0x96, .sbcZpX 0x96, .sbcAbsY 0x12F4, .sbcAbsX 0x12F4] := by decide

theorem test_decode_shift :
    decoded [(16, 0b10010110_00000110), (8, 0b00001010), (24, 0b00010010_11110100_00001110),
      (16, 0b10010110_00010110), (24, 0b00010010_11110100_00011110), (16, 0b10010110_00100110),
      (8, 0b00101010), (24, 0b00010010_11110100_00101110), (16, 0b10010110_00110110),
      (24, 0b00010010_11110100_00111110), (16, 0b10010110_01000110), (8, 0b01001010),
      (24, 0b00010010_11110100_01001110), (16, 0b10010110_01010110), (24, 0b00010010_11110100_01011110),
      (16, 0b10010110_01100110), (8, 0b01101010), (24, 0b00010010_11110100_01101110),
      (16, 0b10010110_01110110), (24, 0b00010010_11110100_01111110)]
    = [.aslZp 0x96, .aslA, .aslAbs 0x12F4, .aslZpX 0x96, .aslAbsX 0x12F4, .rolZp 0x96,
      .rolA, .rolAbs 0x12F4, .rolZpX 0x96, .rolAbsX 0x12F4, .lsrZp 0x96, .lsrA,
      .lsrAbs 0x12F4, .lsrZpX 0x96, .lsrAbsX 0x12F4, .rorZp 0x96, .rorA, .rorAbs 0x12F4,
      .rorZpX 0x96, .rorAbsX 0x12F4] := by decide

theorem test_decode_inc_dec :
    decoded [(8, 0b10001000), (16, 0b10010110_11000110), (8, 0b11001000),
      (8, 0b11001010), (24, 0b00010010_11110100_11001110), (16, 0b10010110_11010110),
      (24, 0b00010010_11110100_11011110), (16, 0b10010110_11100110), (8, 0b11101000),
      (24, 0b00010010_11110100_11101110), (16, 0b10010110_11110110), (24, 0b00010010_11110100_11111110)]
    = [.dey, .decZp 0x96, .iny, .dex, .decAbs 0x12F4, .decZpX 0x96,
      .decAbsX 0x12F4, .incZp 0x96, .inx, .incAbs 0x12F4, .incZpX 0x96, .incAbsX 0x12F4] := by decide

theorem test_decode_logic :
    decoded [(16, 0b10010110_00000001), (16, 0b10010110_00000101), (16, 0b10010110_00001001),
      (24, 0b00010010_11110100_00001101), (16, 0b10010110_00010001), (16, 0b10010110_00010101),
      (24, 0b00010010_11110100_00011001), (24, 0b00010010_11110100_00011101), (16, 0b10010110_00100001),
      (16, 0b10010110_00100100), (16, 0b10010110_00100101), (16, 0b10010110_00101001),
      (24, 0b00010010_11110100_00101100), (24, 0b00010010_11110100_00101101), (16, 0b10010110_00110001),
      (16, 0b10010110_00110101), (24, 0b00010010_11110100_00111001), (24, 0b00010010_11110100_00111101),
      (16, 0b10010110_01000001), (16, 0b10010110_01000101), (16, 0b10010110_01001001),
      (24, 0b00010010_11110100_01001101), (16, 0b10010110_01010001), (16, 0b10010110_01010101),
      (24, 0b00010010_11110100_01011001), (24, 0b00010010_11110100_01011101)]
    = [.oraIndX 0x96, .oraZp 0x96, .oraImm 0x96, .oraAbs 0x12F4, .oraIndY 0x96, .oraZpX 0x96,
      .oraAbsY 0x12F4, .oraAbsX 0x12F4, .andIndX 0x96, .bitZp 0x96, .andZp 0x96, .andImm 0x96,
      .bitAbs 0x12F4, .andAbs 0x12F4, .andIndY 0x96, .andZpX 0x96, .andAbsY 0x12F4, .andAbsX 0x12F4,
      .eorIndX 0x96, .eorZp 0x96, .eorImm 0x96, .eorAbs 0x12F4, .eorIndY 0x96, .eorZpX 0x96,
      .eorAbsY 0x12F4, .eorAbsX 0x12F4] := by decide

theorem test_decode_load :
    decoded [(16, 0b10010110_10100000), (16, 0b10010110_10100001), (16, 0b10010110_10100010),
      (16, 0b10010110_10100100), (16, 0b10010110_10100101), (16, 0b10010110_10100110),
      (16, 0b10010110_10101001), (24, 0b00010010_11110100_10101100), (24, 0b00010010_11110100_10101101),
      (24, 0b00010010_11110100_10101110), (16, 0b10010110_10110001), (16, 0b10010110_10110100),
      (16, 0b10010110_10110101), (16, 0b10010110_10110110), (24, 0b00010010_11110100_10111001),
      (24, 0b00010010_11110100_10111100), (24, 0b00010010_11110100_10111101), (24, 0b00010010_11110100_10111110)]
    = [.ldyImm 0x96, .ldaIndX 0x96, .ldxImm 0x96, .ldyZp 0x96, .ldaZp 0x96, .ldxZp 0x96,
      .ldaImm 0x96, .ldyAbs 0x12F4, .ldaAbs 0x12F4, .ldxAbs 0x12F4, .ldaIndY 0x96, .ldyZpX 0x96,
      .ldaZpX 0x96, .ldxZpY 0x96, .ldaAbsY 0x12F4, .ldyAbsX 0x12F4, .ldaAbsX 0x12F4, .ldxAbsY 0x12F4] := by decide

theorem test_decode_store :
    decoded [(16, 0b10010110_10000001), (16, 0b10010110_10000100), (16, 0b10010110_10000101),
      (16, 0b10010110_10000110), (24, 0b00010010_11110100_10001100), (24, 0b00010010_11110100_10001101),
      (24, 0b00010010_11110100_10001110), (16, 0b10010110_10010001), (16, 0b10010110_10010100),
      (16, 0b10010110_10010101), (16, 0b10010110_10010110), (24, 0b00010010_11110100_10011001),
      (24, 0b00010010_11110100_10011101)]
    = [.staIndX 0x96, .styZp 0x96, .staZp 0x96, .stxZp 0x96, .styAbs 0x12F4, .staAbs 0x12F4,
      .stxAbs 0x12F4, .staIndY 0x96, .styZpX 0x96, .staZpX 0x96, .stxZpY 0x96, .staAbsY 0x12F4,
      .staAbsX 0x12F4] := by decide

theorem test_decode_control :
    decoded [(16, 0b10010110_00010000), (24, 0b00010010_11110100_00100000), (16, 0b10010110_00110000),
      (24, 0b00010010_11110100_01001100), (16, 0b10010110_01010000), (8, 0b01100000),
      (24, 0b00010010_11110100_01101100), (16, 0b10010110_01110000), (16, 0b10010110_10010000),
      (16, 0b10010110_10110000), (16, 0b10010110_11010000), (16, 0b10010110_11110000)]
    = [.bpl 0x96, .jsr 0x12F4, .bmi 0x96, .jmpAbs 0x12F4, .bvc 0x96, .rts,
      .jmpInd 0x12F4, .bvs 0x96, .bcc 0x96, .bcs 0x96, .bne 0x96, .beq 0x96] := by decide

theorem test_decode_stack :
    decoded [(8, 0b00001000), (8, 0b00101000), (8, 0b01001000),
      (8, 0b01101000), (8, 0b10001010), (8, 0b10011000),
      (8, 0b10011010), (8, 0b10101000), (8, 0b10101010),
      (8, 0b10111010)]
    = [.php, .plp, .pha, .pla, .txa, .tya,
      .txs, .tay, .tax, .tsx] := by decide

theorem test_decode_system :
    decoded [(8, 0b00000000), (8, 0b00011000), (8, 0b00111000),
      (8, 0b01000000), (8, 0b01011000), (8, 0b01111000),
      (8, 0b10111000), (8, 0b11011000), (8, 0b11101010),
      (8, 0b11111000)]
    = [.brk, .clc, .sec, .rti, .cli, .sei,
      .clv, .cld, .nop, .sed] := by decide

theorem test_decode_invalid_low : ∀ op ∈ ([] : List Byte)
    ++ [0x02, 0x03, 0x04, 0x07, 0x0B, 0x0C, 0x0F]
    ++ [0x12, 0x13, 0x14, 0x17, 0x1A, 0x1B, 0x1C, 0x1F]
    ++ [0x22, 0x23, 0x27, 0x2B, 0x2F]
    ++ [0x32, 0x33, 0x34, 0x37, 0x3A, 0x3B, 0x3C, 0x3F]
    ++ [0x42, 0x43, 0x44, 0x47, 0x4B, 0x4F]
    ++ [0x52, 0x53, 0x54, 0x57, 0x5A, 0x5B, 0x5C, 0x5F]
    ++ [0x62, 0x63, 0x64, 0x67, 0x6B, 0x6F]
    ++ [0x72, 0x73, 0x74, 0x77, 0x7A, 0x7B, 0x7C, 0x7F],
    decodeTableWord 8 op.toNat = some (.invalid op) := by decide

theorem test_decode_invalid_high : ∀ op ∈ ([] : List Byte)
    ++ [0x80, 0x82, 0x83, 0x87, 0x89, 0x8B, 0x8F]
    ++ [0x92, 0x93, 0x97, 0x9B, 0x9C, 0x9E, 0x9F]
    ++ [0xA3, 0xA7, 0xAB, 0xAF]
    ++ [0xB2, 0xB3, 0xB7, 0xBB, 0xBF]
    ++ [0xC2, 0xC3, 0xC7, 0xCB, 0xCF]
    ++ [0xD2, 0xD3, 0xD4, 0xD7, 0xDA, 0xDB, 0xDC, 0xDF]
    ++ [0xE2, 0xE3, 0xE7, 0xEB, 0xEF]
    ++ [0xF2, 0xF3, 0xF4, 0xF7, 0xFA, 0xFB, 0xFC, 0xFF],
    decodeTableWord 8 op.toNat = some (.invalid op) := by decide

theorem test_cycles_low : ([(0x00, 7), (0x01, 6), (0x05, 3), (0x06, 5), (0x08, 3), (0x09, 2), (0x0A, 2), (0x0D, 4), (0x0E, 6), (0x10, 2)]
      ++ [(0x11, 5), (0x15, 4), (0x16, 6), (0x18, 2), (0x19, 4), (0x1D, 4), (0x1E, 7), (0x20, 6), (0x21, 6), (0x24, 3)]
      ++ [(0x25, 3), (0x26, 5), (0x28, 4), (0x29, 2), (0x2A, 2), (0x2C, 4), (0x2D, 4), (0x2E, 6), (0x30, 2), (0x31, 5)]
      ++ [(0x35, 4), (0x36, 6), (0x38, 2), (0x39, 4), (0x3D, 4), (0x3E, 7), (0x40, 6), (0x41, 6), (0x45, 3), (0x46, 5)]
      ++ [(0x48, 3), (0x49, 2), (0x4A, 2), (0x4C, 3), (0x4D, 4), (0x4E, 6), (0x50, 2), (0x51, 5), (0x55, 4), (0x56, 6)]
      ++ [(0x58, 2), (0x59, 4), (0x5D, 4), (0x5E, 7), (0x60, 6), (0x61, 6), (0x65, 3), (0x66, 5), (0x68, 4), (0x69, 2)]
      ++ [(0x6A, 2), (0x6C, 5), (0x6D, 4), (0x6E, 6), (0x70, 2), (0x71, 5), (0x75, 4), (0x76, 6), (0x78, 2), (0x79, 4)]
      ++ [(0x7D, 4), (0x7E, 7), (0x81, 6), (0x84, 3), (0x85, 3)] : List (Byte × Nat)).all
      (fun r => cycles r.1 == r.2) = true := by decide

theorem test_cycles_high : ([(0x86, 3), (0x88, 2), (0x8A, 2), (0x8C, 4), (0x8D, 4), (0x8E, 4), (0x90, 2), (0x91, 6), (0x94, 4), (0x95, 4)]
      ++ [(0x96, 4), (0x98, 2), (0x99, 5), (0x9A, 2), (0x9D, 5), (0xA0, 2), (0xA1, 6), (0xA2, 2), (0xA4, 3), (0xA5, 3)]
      ++ [(0xA6, 3), (0xA8, 2), (0xA9, 2), (0xAA, 2), (0xAC, 4), (0xAD, 4), (0xAE, 4), (0xB0, 2), (0xB1, 5), (0xB4, 4)]
      ++ [(0xB5, 4), (0xB6, 4), (0xB8, 2), (0xB9, 4), (0xBA, 2), (0xBC, 4), (0xBD, 4), (0xBE, 4), (0xC0, 2), (0xC1, 6)]
      ++ [(0xC4, 3), (0xC5, 3), (0xC6, 5), (0xC8, 2), (0xC9, 2), (0xCA, 2), (0xCC, 4), (0xCD, 4), (0xCE, 6), (0xD0, 2)]
      ++ [(0xD1, 5), (0xD5, 4), (0xD6, 6), (0xD8, 2), (0xD9, 4), (0xDD, 4), (0xDE, 7), (0xE0, 2), (0xE1, 6), (0xE4, 3)]
      ++ [(0xE5, 3), (0xE6, 5), (0xE8, 2), (0xE9, 2), (0xEA, 2), (0xEC, 4), (0xED, 4), (0xEE, 6), (0xF0, 2), (0xF1, 5)]
      ++ [(0xF5, 4), (0xF6, 6), (0xF8, 2), (0xF9, 4), (0xFD, 4), (0xFE, 7)] : List (Byte × Nat)).all
      (fun r => cycles r.1 == r.2) = true := by decide

/-! ### One step: vectors of spec/95_test_vectors.md section 2, each theorem named after its row -/

/-- Flags in the order of the vectors' column. -/
def nvdizc (n v d i z c : Nat) : Flags := ⟨c == 1, z == 1, i == 1, d == 1, v == 1, n == 1⟩

/-- The state before a vector, as section 2 gives it. -/
def defaults : State := { State.reset with pc := 0x0200, sp := 0xFD, p := nvdizc 0 0 0 0 0 0, events := [] }

/-- Memory bytes set before a vector. -/
def cells (l : List (Nat × Byte)) (s : State) : State := { s with mem := l.foldl (fun m c => m.write c.1 c.2) s.mem }

/-- Instruction bytes placed at PC and after it. -/
def code : List Byte → State → State
  | bytes, s => { s with
      mem := (bytes.zipIdx.foldl (fun m c => m.write ((s.pc.toNat + c.2) % 65536) c.1) s.mem) }

/-- The state a step leads to, when it does. -/
def reached : Ending → Option State
  | .next t => some t
  | .fault _ => none
  | .refused _ => none

/-- What a vector says about a step: PC, A X Y SP, the flags, the bus writes, the latches and the halted mark, the result. -/
structure Seen where
  pc : Word
  axysp : List Byte
  p : Flags
  writes : List BusEvent
  nmiIrqHalted : List Bool
  result : Option StepResult
deriving DecidableEq, Repr

def seen (o : Ending) : Option Seen :=
  (reached o).map fun t =>
    ⟨t.pc, [t.a, t.x, t.y, t.sp], t.p, t.events.filter (fun e => !e.isRead), [t.nmiPending, t.irqPending, t.halted], t.result⟩

/-- The event list of a step. -/
def bus (o : Ending) : List BusEvent := ((reached o).map State.events).getD []

theorem test_adc_4 : seen (step (code [0x69, 0x80] ({ defaults with a := 0x80 })))
    = some ⟨0x0202, [0x00, 0x00, 0x00, 0xFD], nvdizc 0 1 0 0 1 1, [], [false, false, false], some (.ok 2)⟩ := by decide

theorem test_adc_7 : seen (step (code [0x69, 0x01] ({ defaults with a := 0x09, p := nvdizc 0 0 1 0 0 0 })))
    = some ⟨0x0202, [0x0A, 0x00, 0x00, 0xFD], nvdizc 0 0 1 0 0 0, [], [false, false, false], some (.ok 2)⟩ := by decide

theorem test_sbc_1 : seen (step (code [0xE9, 0x01] ({ defaults with p := nvdizc 0 0 0 0 0 1 })))
    = some ⟨0x0202, [0xFF, 0x00, 0x00, 0xFD], nvdizc 1 0 0 0 0 0, [], [false, false, false], some (.ok 2)⟩ := by decide

theorem test_sbc_4 : seen (step (code [0xE9, 0x01] ({ defaults with a := 0x80, p := nvdizc 0 0 0 0 0 1 })))
    = some ⟨0x0202, [0x7F, 0x00, 0x00, 0xFD], nvdizc 0 1 0 0 0 1, [], [false, false, false], some (.ok 2)⟩ := by decide

theorem test_cmp_4 : seen (step (code [0xC9, 0xFF] ({ defaults with a := 0x01, p := nvdizc 1 0 0 0 1 1 })))
    = some ⟨0x0202, [0x01, 0x00, 0x00, 0xFD], nvdizc 0 0 0 0 0 0, [], [false, false, false], some (.ok 2)⟩ := by decide

theorem test_cmp_5 : seen (step (code [0xC9, 0x01] ({ defaults with a := 0x80, p := nvdizc 0 1 0 0 0 0 })))
    = some ⟨0x0202, [0x80, 0x00, 0x00, 0xFD], nvdizc 0 1 0 0 0 1, [], [false, false, false], some (.ok 2)⟩ := by decide

theorem test_cpx_2 : seen (step (code [0xE4, 0x10] (cells [(0x0010, 0x01)]
      defaults)))
    = some ⟨0x0202, [0x00, 0x00, 0x00, 0xFD], nvdizc 1 0 0 0 0 0, [], [false, false, false], some (.ok 3)⟩ := by decide

theorem test_cpy_2 : seen (step (code [0xCC, 0x00, 0x03] (cells [(0x0300, 0x80)]
      ({ defaults with y := 0x7F }))))
    = some ⟨0x0203, [0x00, 0x00, 0x7F, 0xFD], nvdizc 1 0 0 0 0 0, [], [false, false, false], some (.ok 4)⟩ := by decide

theorem test_asl_2 : seen (step (code [0x0A] ({ defaults with a := 0x41, p := nvdizc 0 0 0 0 0 1 })))
    = some ⟨0x0201, [0x82, 0x00, 0x00, 0xFD], nvdizc 1 0 0 0 0 0, [], [false, false, false], some (.ok 2)⟩ := by decide

theorem test_asl_4 : seen (step (code [0x1E, 0xFF, 0x02] (cells [(0x0300, 0x01)]
      ({ defaults with x := 0x01 }))))
    = some ⟨0x0203, [0x00, 0x01, 0x00, 0xFD], nvdizc 0 0 0 0 0 0, [.write 0x0300 0x02], [false, false, false], some (.ok 7)⟩ := by decide

theorem test_lsr_2 : seen (step (code [0x4A] ({ defaults with a := 0xFF, p := nvdizc 1 0 0 0 0 0 })))
    = some ⟨0x0201, [0x7F, 0x00, 0x00, 0xFD], nvdizc 0 0 0 0 0 1, [], [false, false, false], some (.ok 2)⟩ := by decide

theorem test_lsr_3 : seen (step (code [0x46, 0x10] (cells [(0x0010, 0x02)]
      defaults)))
    = some ⟨0x0202, [0x00, 0x00, 0x00, 0xFD], nvdizc 0 0 0 0 0 0, [.write 0x0010 0x01], [false, false, false], some (.ok 5)⟩ := by decide

theorem test_rol_1 : seen (step (code [0x2A] ({ defaults with a := 0x80, p := nvdizc 0 0 0 0 0 1 })))
    = some ⟨0x0201, [0x01, 0x00, 0x00, 0xFD], nvdizc 0 0 0 0 0 1, [], [false, false, false], some (.ok 2)⟩ := by decide

theorem test_rol_3 : seen (step (code [0x36, 0x0F] (cells [(0x0010, 0x40)]
      ({ defaults with x := 0x01, p := nvdizc 0 0 0 0 0 1 }))))
    = some ⟨0x0202, [0x00, 0x01, 0x00, 0xFD], nvdizc 1 0 0 0 0 0, [.write 0x0010 0x81], [false, false, false], some (.ok 6)⟩ := by decide

theorem test_ror_2 : seen (step (code [0x6A] ({ defaults with p := nvdizc 0 0 0 0 0 1 })))
    = some ⟨0x0201, [0x80, 0x00, 0x00, 0xFD], nvdizc 1 0 0 0 0 0, [], [false, false, false], some (.ok 2)⟩ := by decide

theorem test_ror_3 : seen (step (code [0x6E, 0x00, 0x03] (cells [(0x0300, 0x03)]
      ({ defaults with p := nvdizc 0 0 0 0 0 1 }))))
    = some ⟨0x0203, [0x00, 0x00, 0x00, 0xFD], nvdizc 1 0 0 0 0 1, [.write 0x0300 0x81], [false, false, false], some (.ok 6)⟩ := by decide

theorem test_inc_3 : seen (step (code [0xFE, 0xFF, 0xFF] (cells [(0x0000, 0x41)]
      ({ defaults with x := 0x01 }))))
    = some ⟨0x0203, [0x00, 0x01, 0x00, 0xFD], nvdizc 0 0 0 0 0 0, [.write 0x0000 0x42], [false, false, false], some (.ok 7)⟩ := by decide

theorem test_dec_1 : seen (step (code [0xC6, 0x10] (cells [(0x0010, 0x00)]
      ({ defaults with p := nvdizc 0 0 0 0 0 1 }))))
    = some ⟨0x0202, [0x00, 0x00, 0x00, 0xFD], nvdizc 1 0 0 0 0 1, [.write 0x0010 0xFF], [false, false, false], some (.ok 5)⟩ := by decide

theorem test_dec_2 : seen (step (code [0xD6, 0xFF] (cells [(0x0010, 0x01)]
      ({ defaults with x := 0x11 }))))
    = some ⟨0x0202, [0x00, 0x11, 0x00, 0xFD], nvdizc 0 0 0 0 1 0, [.write 0x0010 0x00], [false, false, false], some (.ok 6)⟩ := by decide

theorem test_inx_1 : seen (step (code [0xE8] ({ defaults with x := 0xFF })))
    = some ⟨0x0201, [0x00, 0x00, 0x00, 0xFD], nvdizc 0 0 0 0 1 0, [], [false, false, false], some (.ok 2)⟩ := by decide

theorem test_inx_2 : seen (step (code [0xE8] ({ defaults with x := 0x7F, p := nvdizc 0 0 0 0 0 1 })))
    = some ⟨0x0201, [0x00, 0x80, 0x00, 0xFD], nvdizc 1 0 0 0 0 1, [], [false, false, false], some (.ok 2)⟩ := by decide

theorem test_iny_1 : seen (step (code [0xC8] ({ defaults with p := nvdizc 0 0 0 0 1 0 })))
    = some ⟨0x0201, [0x00, 0x00, 0x01, 0xFD], nvdizc 0 0 0 0 0 0, [], [false, false, false], some (.ok 2)⟩ := by decide

theorem test_dex_1 : seen (step (code [0xCA] defaults))
    = some ⟨0x0201, [0x00, 0xFF, 0x00, 0xFD], nvdizc 1 0 0 0 0 0, [], [false, false, false], some (.ok 2)⟩ := by decide

theorem test_dey_1 : seen (step (code [0x88] ({ defaults with y := 0x80 })))
    = some ⟨0x0201, [0x00, 0x00, 0x7F, 0xFD], nvdizc 0 0 0 0 0 0, [], [false, false, false], some (.ok 2)⟩ := by decide

theorem test_and_2 : seen (step (code [0x29, 0x80] ({ defaults with a := 0xFF })))
    = some ⟨0x0202, [0x80, 0x00, 0x00, 0xFD], nvdizc 1 0 0 0 0 0, [], [false, false, false], some (.ok 2)⟩ := by decide

theorem test_ora_2 : seen (step (code [0x05, 0x10] (cells [(0x0010, 0x80)]
      ({ defaults with a := 0x01 }))))
    = some ⟨0x0202, [0x81, 0x00, 0x00, 0xFD], nvdizc 1 0 0 0 0 0, [], [false, false, false], some (.ok 3)⟩ := by decide

theorem test_eor_2 : seen (step (code [0x49, 0x80] ({ defaults with a := 0x01 })))
    = some ⟨0x0202, [0x81, 0x00, 0x00, 0xFD], nvdizc 1 0 0 0 0 0, [], [false, false, false], some (.ok 2)⟩ := by decide

theorem test_bit_1 : seen (step (code [0x24, 0x10] (cells [(0x0010, 0xC0)]
      ({ defaults with a := 0x01 }))))
    = some ⟨0x0202, [0x01, 0x00, 0x00, 0xFD], nvdizc 1 1 0 0 1 0, [], [false, false, false], some (.ok 3)⟩ := by decide

theorem test_bit_2 : seen (step (code [0x2C, 0x00, 0x03] (cells [(0x0300, 0x41)]
      ({ defaults with a := 0x40, p := nvdizc 1 1 0 0 1 0 }))))
    = some ⟨0x0203, [0x40, 0x00, 0x00, 0xFD], nvdizc 0 1 0 0 0 0, [], [false, false, false], some (.ok 4)⟩ := by decide

theorem test_lda_7 : seen (step (code [0xB1, 0xFF] (cells [(0x00FF, 0xFF), (0x0000, 0x12), (0x1300, 0x5A)]
      ({ defaults with y := 0x01 }))))
    = some ⟨0x0202, [0x5A, 0x00, 0x01, 0xFD], nvdizc 0 0 0 0 0 0, [], [false, false, false], some (.ok 5)⟩ := by decide

theorem test_ldx_1 : seen (step (code [0xB6, 0xFF] (cells [(0x0001, 0x80)]
      ({ defaults with y := 0x02 }))))
    = some ⟨0x0202, [0x00, 0x80, 0x02, 0xFD], nvdizc 1 0 0 0 0 0, [], [false, false, false], some (.ok 4)⟩ := by decide

theorem test_ldx_2 : seen (step (code [0xBE, 0x00, 0x03] (cells [(0x03FF, 0x00)]
      ({ defaults with y := 0xFF }))))
    = some ⟨0x0203, [0x00, 0x00, 0xFF, 0xFD], nvdizc 0 0 0 0 1 0, [], [false, false, false], some (.ok 4)⟩ := by decide

theorem test_ldy_2 : seen (step (code [0xBC, 0xF0, 0x02] (cells [(0x0300, 0xFF)]
      ({ defaults with x := 0x10 }))))
    = some ⟨0x0203, [0x00, 0x10, 0xFF, 0xFD], nvdizc 1 0 0 0 0 0, [], [false, false, false], some (.ok 4)⟩ := by decide

theorem test_sta_4 : seen (step (code [0x99, 0xFF, 0xFF] ({ defaults with a := 0x42, y := 0x02 })))
    = some ⟨0x0203, [0x42, 0x00, 0x02, 0xFD], nvdizc 0 0 0 0 0 0, [.write 0x0001 0x42], [false, false, false], some (.ok 5)⟩ := by decide

theorem test_stx_1 : seen (step (code [0x96, 0xFF] ({ defaults with x := 0x0A, y := 0x02 })))
    = some ⟨0x0202, [0x00, 0x0A, 0x02, 0xFD], nvdizc 0 0 0 0 0 0, [.write 0x0001 0x0A], [false, false, false], some (.ok 4)⟩ := by decide

theorem test_sty_1 : seen (step (code [0x8C, 0x00, 0x03] defaults))
    = some ⟨0x0203, [0x00, 0x00, 0x00, 0xFD], nvdizc 0 0 0 0 0 0, [.write 0x0300 0x00], [false, false, false], some (.ok 4)⟩ := by decide

theorem test_bcc_t : seen (step (code [0x90, 0x10] ({ defaults with pc := 0x0300 })))
    = some ⟨0x0312, [0x00, 0x00, 0x00, 0xFD], nvdizc 0 0 0 0 0 0, [], [false, false, false], some (.ok 2)⟩ := by decide

theorem test_bcc_n : seen (step (code [0x90, 0x10] ({ defaults with pc := 0x0300, p := nvdizc 0 0 0 0 0 1 })))
    = some ⟨0x0302, [0x00, 0x00, 0x00, 0xFD], nvdizc 0 0 0 0 0 1, [], [false, false, false], some (.ok 2)⟩ := by decide

theorem test_bcs_t : seen (step (code [0xB0, 0x10] ({ defaults with pc := 0x0300, p := nvdizc 0 0 0 0 0 1 })))
    = some ⟨0x0312, [0x00, 0x00, 0x00, 0xFD], nvdizc 0 0 0 0 0 1, [], [false, false, false], some (.ok 2)⟩ := by decide

theorem test_bcs_n : seen (step (code [0xB0, 0x10] ({ defaults with pc := 0x0300 })))
    = some ⟨0x0302, [0x00, 0x00, 0x00, 0xFD], nvdizc 0 0 0 0 0 0, [], [false, false, false], some (.ok 2)⟩ := by decide

theorem test_beq_n : seen (step (code [0xF0, 0x10] ({ defaults with pc := 0x0300 })))
    = some ⟨0x0302, [0x00, 0x00, 0x00, 0xFD], nvdizc 0 0 0 0 0 0, [], [false, false, false], some (.ok 2)⟩ := by decide

theorem test_br_2 : seen (step (code [0xF0, 0x80] ({ defaults with pc := 0x0300, p := nvdizc 0 0 0 0 1 0 })))
    = some ⟨0x0282, [0x00, 0x00, 0x00, 0xFD], nvdizc 0 0 0 0 1 0, [], [false, false, false], some (.ok 2)⟩ := by decide

theorem test_br_1 : seen (step (code [0xD0, 0xFE] ({ defaults with pc := 0x0300 })))
    = some ⟨0x0300, [0x00, 0x00, 0x00, 0xFD], nvdizc 0 0 0 0 0 0, [], [false, false, false], some (.ok 2)⟩ := by decide

theorem test_bmi_t : seen (step (code [0x30, 0x10] ({ defaults with pc := 0x0300, p := nvdizc 1 0 0 0 0 0 })))
    = some ⟨0x0312, [0x00, 0x00, 0x00, 0xFD], nvdizc 1 0 0 0 0 0, [], [false, false, false], some (.ok 2)⟩ := by decide

theorem test_bmi_n : seen (step (code [0x30, 0x10] ({ defaults with pc := 0x0300 })))
    = some ⟨0x0302, [0x00, 0x00, 0x00, 0xFD], nvdizc 0 0 0 0 0 0, [], [false, false, false], some (.ok 2)⟩ := by decide

theorem test_bpl_n : seen (step (code [0x10, 0x10] ({ defaults with pc := 0x0300, p := nvdizc 1 0 0 0 0 0 })))
    = some ⟨0x0302, [0x00, 0x00, 0x00, 0xFD], nvdizc 1 0 0 0 0 0, [], [false, false, false], some (.ok 2)⟩ := by decide

theorem test_br_4 : seen (step (code [0x10, 0x20] ({ defaults with pc := 0xFFF0 })))
    = some ⟨0x0012, [0x00, 0x00, 0x00, 0xFD], nvdizc 0 0 0 0 0 0, [], [false, false, false], some (.ok 2)⟩ := by decide

theorem test_bvc_t : seen (step (code [0x50, 0x10] ({ defaults with pc := 0x0300 })))
    = some ⟨0x0312, [0x00, 0x00, 0x00, 0xFD], nvdizc 0 0 0 0 0 0, [], [false, false, false], some (.ok 2)⟩ := by decide

theorem test_bvc_n : seen (step (code [0x50, 0x10] ({ defaults with pc := 0x0300, p := nvdizc 0 1 0 0 0 0 })))
    = some ⟨0x0302, [0x00, 0x00, 0x00, 0xFD], nvdizc 0 1 0 0 0 0, [], [false, false, false], some (.ok 2)⟩ := by decide

theorem test_bvs_t : seen (step (code [0x70, 0x10] ({ defaults with pc := 0x0300, p := nvdizc 0 1 0 0 0 0 })))
    = some ⟨0x0312, [0x00, 0x00, 0x00, 0xFD], nvdizc 0 1 0 0 0 0, [], [false, false, false], some (.ok 2)⟩ := by decide

theorem test_bvs_n : seen (step (code [0x70, 0x10] ({ defaults with pc := 0x0300 })))
    = some ⟨0x0302, [0x00, 0x00, 0x00, 0xFD], nvdizc 0 0 0 0 0 0, [], [false, false, false], some (.ok 2)⟩ := by decide

theorem test_jmp_2 : seen (step (code [0x6C, 0xFF, 0x12] (cells [(0x12FF, 0x34), (0x1200, 0x56), (0x1300, 0x78)]
      defaults)))
    = some ⟨0x5634, [0x00, 0x00, 0x00, 0xFD], nvdizc 0 0 0 0 0 0, [], [false, false, false], some (.ok 5)⟩ := by decide

theorem test_jmp_3 : seen (step (code [0x6C, 0xFF, 0x12] (cells [(0x12FF, 0x34), (0x1200, 0x56), (0x1300, 0x78)]
      ({ defaults with cfg := { Config.default with jmpIndWrapBug := false } }))))
    = some ⟨0x7834, [0x00, 0x00, 0x00, 0xFD], nvdizc 0 0 0 0 0 0, [], [false, false, false], some (.ok 5)⟩ := by decide

theorem test_jsr_2 : seen (step (code [0x20, 0x00, 0x90] ({ defaults with pc := 0x8000, sp := 0x00 })))
    = some ⟨0x9000, [0x00, 0x00, 0x00, 0xFE], nvdizc 0 0 0 0 0 0, [.write 0x0100 0x80, .write 0x01FF 0x02], [false, false, false], some (.ok 6)⟩ := by decide

theorem test_rts_2 : seen (step (code [0x60] (cells [(0x01FE, 0xFF), (0x01FF, 0xFF)]
      defaults)))
    = some ⟨0x0000, [0x00, 0x00, 0x00, 0xFF], nvdizc 0 0 0 0 0 0, [], [false, false, false], some (.ok 6)⟩ := by decide

theorem test_pha_2 : seen (step (code [0x48] ({ defaults with a := 0x42, sp := 0x00 })))
    = some ⟨0x0201, [0x42, 0x00, 0x00, 0xFF], nvdizc 0 0 0 0 0 0, [.write 0x0100 0x42], [false, false, false], some (.ok 3)⟩ := by decide

theorem test_php_1 : seen (step (code [0x08] ({ defaults with p := nvdizc 0 0 0 0 1 1 })))
    = some ⟨0x0201, [0x00, 0x00, 0x00, 0xFC], nvdizc 0 0 0 0 1 1, [.write 0x01FD 0x33], [false, false, false], some (.ok 3)⟩ := by decide

theorem test_php_2 : seen (step (code [0x08] ({ defaults with p := nvdizc 1 1 1 1 1 1 })))
    = some ⟨0x0201, [0x00, 0x00, 0x00, 0xFC], nvdizc 1 1 1 1 1 1, [.write 0x01FD 0xFF], [false, false, false], some (.ok 3)⟩ := by decide

theorem test_pla_1 : seen (step (code [0x68] (cells [(0x01FF, 0x00)]
      ({ defaults with sp := 0xFE }))))
    = some ⟨0x0201, [0x00, 0x00, 0x00, 0xFF], nvdizc 0 0 0 0 1 0, [], [false, false, false], some (.ok 4)⟩ := by decide

theorem test_pla_2 : seen (step (code [0x68] (cells [(0x0100, 0x80)]
      ({ defaults with sp := 0xFF }))))
    = some ⟨0x0201, [0x80, 0x00, 0x00, 0x00], nvdizc 1 0 0 0 0 0, [], [false, false, false], some (.ok 4)⟩ := by decide

theorem test_plp_1 : seen (step (code [0x28] (cells [(0x01FF, 0xFF)]
      ({ defaults with sp := 0xFE }))))
    = some ⟨0x0201, [0x00, 0x00, 0x00, 0xFF], nvdizc 1 1 1 1 1 1, [], [false, false, false], some (.ok 4)⟩ := by decide

theorem test_plp_2 : seen (step (code [0x28] (cells [(0x01FF, 0x30)]
      ({ defaults with sp := 0xFE, p := nvdizc 1 1 1 1 1 1 }))))
    = some ⟨0x0201, [0x00, 0x00, 0x00, 0xFF], nvdizc 0 0 0 0 0 0, [], [false, false, false], some (.ok 4)⟩ := by decide

theorem test_tax_1 : seen (step (code [0xAA] ({ defaults with a := 0x80 })))
    = some ⟨0x0201, [0x80, 0x80, 0x00, 0xFD], nvdizc 1 0 0 0 0 0, [], [false, false, false], some (.ok 2)⟩ := by decide

theorem test_tay_1 : seen (step (code [0xA8] ({ defaults with a := 0x01 })))
    = some ⟨0x0201, [0x01, 0x00, 0x01, 0xFD], nvdizc 0 0 0 0 0 0, [], [false, false, false], some (.ok 2)⟩ := by decide

theorem test_txa_1 : seen (step (code [0x8A] ({ defaults with a := 0x12 })))
    = some ⟨0x0201, [0x00, 0x00, 0x00, 0xFD], nvdizc 0 0 0 0 1 0, [], [false, false, false], some (.ok 2)⟩ := by decide

theorem test_tya_1 : seen (step (code [0x98] ({ defaults with y := 0xFF })))
    = some ⟨0x0201, [0xFF, 0x00, 0xFF, 0xFD], nvdizc 1 0 0 0 0 0, [], [false, false, false], some (.ok 2)⟩ := by decide

theorem test_tsx_1 : seen (step (code [0xBA] defaults))
    = some ⟨0x0201, [0x00, 0xFD, 0x00, 0xFD], nvdizc 1 0 0 0 0 0, [], [false, false, false], some (.ok 2)⟩ := by decide

theorem test_txs_1 : seen (step (code [0x9A] ({ defaults with p := nvdizc 1 0 0 0 0 0 })))
    = some ⟨0x0201, [0x00, 0x00, 0x00, 0x00], nvdizc 1 0 0 0 0 0, [], [false, false, false], some (.ok 2)⟩ := by decide

theorem test_brk_2 : seen (step (code [0x00] (cells [(0xFFFE, 0x00), (0xFFFF, 0x90)]
      ({ defaults with pc := 0x8000, sp := 0xFF, p := nvdizc 0 0 1 1 0 1, irqPending := true }))))
    = some ⟨0x9000, [0x00, 0x00, 0x00, 0xFC], nvdizc 0 0 1 1 0 1, [.write 0x01FF 0x80, .write 0x01FE 0x02, .write 0x01FD 0x3D], [false, true, false], some (.ok 7)⟩ := by decide

theorem test_rti_2 : seen (step (code [0x40] (cells [(0x01FD, 0xFF), (0x01FE, 0x34), (0x01FF, 0x12)]
      ({ defaults with sp := 0xFC }))))
    = some ⟨0x1234, [0x00, 0x00, 0x00, 0xFF], nvdizc 1 1 1 1 1 1, [], [false, false, false], some (.ok 6)⟩ := by decide

theorem test_clc_1 : seen (step (code [0x18] ({ defaults with p := nvdizc 0 0 0 0 0 1 })))
    = some ⟨0x0201, [0x00, 0x00, 0x00, 0xFD], nvdizc 0 0 0 0 0 0, [], [false, false, false], some (.ok 2)⟩ := by decide

theorem test_sec_1 : seen (step (code [0x38] defaults))
    = some ⟨0x0201, [0x00, 0x00, 0x00, 0xFD], nvdizc 0 0 0 0 0 1, [], [false, false, false], some (.ok 2)⟩ := by decide

theorem test_cli_1 : seen (step (code [0x58] ({ defaults with p := nvdizc 0 0 0 1 0 0 })))
    = some ⟨0x0201, [0x00, 0x00, 0x00, 0xFD], nvdizc 0 0 0 0 0 0, [], [false, false, false], some (.ok 2)⟩ := by decide

theorem test_sei_1 : seen (step (code [0x78] defaults))
    = some ⟨0x0201, [0x00, 0x00, 0x00, 0xFD], nvdizc 0 0 0 1 0 0, [], [false, false, false], some (.ok 2)⟩ := by decide

theorem test_clv_1 : seen (step (code [0xB8] ({ defaults with p := nvdizc 0 1 0 0 0 0 })))
    = some ⟨0x0201, [0x00, 0x00, 0x00, 0xFD], nvdizc 0 0 0 0 0 0, [], [false, false, false], some (.ok 2)⟩ := by decide

theorem test_cld_1 : seen (step (code [0xD8] ({ defaults with p := nvdizc 0 0 1 0 0 0 })))
    = some ⟨0x0201, [0x00, 0x00, 0x00, 0xFD], nvdizc 0 0 0 0 0 0, [], [false, false, false], some (.ok 2)⟩ := by decide

theorem test_sed_1 : seen (step (code [0xF8] defaults))
    = some ⟨0x0201, [0x00, 0x00, 0x00, 0xFD], nvdizc 0 0 1 0 0 0, [], [false, false, false], some (.ok 2)⟩ := by decide

theorem test_nop_1 : seen (step (code [0xEA] ({ defaults with pc := 0x0400, a := 0x12, p := nvdizc 0 0 0 0 0 1 })))
    = some ⟨0x0401, [0x12, 0x00, 0x00, 0xFD], nvdizc 0 0 0 0 0 1, [], [false, false, false], some (.ok 2)⟩ := by decide

theorem test_nop_2 : seen (step (code [0xEA] ({ defaults with pc := 0xFFFF })))
    = some ⟨0x0000, [0x00, 0x00, 0x00, 0xFD], nvdizc 0 0 0 0 0 0, [], [false, false, false], some (.ok 2)⟩ := by decide

theorem test_irq_1 : seen (step (code [0xEA] (cells [(0xFFFE, 0x00), (0xFFFF, 0x90)]
      ({ defaults with pc := 0x0400, sp := 0xFF, irqPending := true }))))
    = some ⟨0x9000, [0x00, 0x00, 0x00, 0xFC], nvdizc 0 0 0 1 0 0, [.write 0x01FF 0x04, .write 0x01FE 0x00, .write 0x01FD 0x20], [false, false, false], some (.ok 7)⟩ := by decide

theorem test_irq_2 : seen (step (code [0xEA] ({ defaults with pc := 0x0400, p := nvdizc 0 0 0 1 0 0, irqPending := true })))
    = some ⟨0x0401, [0x00, 0x00, 0x00, 0xFD], nvdizc 0 0 0 1 0 0, [], [false, true, false], some (.ok 2)⟩ := by decide

theorem test_nmi_2 : seen (step (code [0xEA] (cells [(0xFFFA, 0x00), (0xFFFB, 0xA0), (0xFFFE, 0x00), (0xFFFF, 0x90)]
      ({ defaults with pc := 0x0400, sp := 0xFF, irqPending := true, nmiPending := true }))))
    = some ⟨0xA000, [0x00, 0x00, 0x00, 0xFC], nvdizc 0 0 0 1 0 0, [.write 0x01FF 0x04, .write 0x01FE 0x00, .write 0x01FD 0x20], [false, true, false], some (.ok 7)⟩ := by decide

theorem test_int_2 : seen (step (code [0xEA] (cells [(0xFFFA, 0x00), (0xFFFB, 0xA0)]
      ({ defaults with pc := 0x0400, sp := 0x01, p := nvdizc 0 0 1 0 0 0, nmiPending := true }))))
    = some ⟨0xA000, [0x00, 0x00, 0x00, 0xFE], nvdizc 0 0 1 1 0 0, [.write 0x0101 0x04, .write 0x0100 0x00, .write 0x01FF 0x28], [false, false, false], some (.ok 7)⟩ := by decide

theorem test_ill_1 : seen (step (code [0x02] ({ defaults with pc := 0x0400, a := 0x12 })))
    = some ⟨0x0400, [0x12, 0x00, 0x00, 0xFD], nvdizc 0 0 0 0 0 0, [], [false, false, true], some (.illegalOpcode 0x0400 0x02)⟩ := by decide

theorem test_ill_2 : seen (step (code [0xFF, 0x00, 0x00] ({ defaults with pc := 0x0400, cfg := { Config.default with illegalPolicy := .skip } })))
    = some ⟨0x0401, [0x00, 0x00, 0x00, 0xFD], nvdizc 0 0 0 0 0 0, [], [false, false, false], some (.ok 2)⟩ := by decide

/-! ### Bus traces of section 3 -/

theorem test_bus_1 : bus (step (code [0xA9, 0x05] defaults))
    = [.read 0x0200 0xA9, .read 0x0201 0x05] := by decide

theorem test_bus_3 : bus (step (code [0xEE, 0x00, 0x03] (cells [(0x0300, 0x41)] defaults)))
    = [.read 0x0200 0xEE, .read 0x0201 0x00, .read 0x0202 0x03, .read 0x0300 0x41, .write 0x0300 0x42] := by decide

theorem test_bus_7 : bus (step (code [0x81, 0xFE] (cells [(0x00FF, 0x00), (0x0000, 0x04)] ({ defaults with a := 0x42, x := 0x01 }))))
    = [.read 0x0200 0x81, .read 0x0201 0xFE, .read 0x00FF 0x00, .read 0x0000 0x04, .write 0x0400 0x42] := by decide

theorem test_bus_9 : bus (step (code [0x20, 0x00, 0x90] ({ defaults with pc := 0x8000, sp := 0xFF })))
    = [.read 0x8000 0x20, .read 0x8001 0x00, .read 0x8002 0x90, .write 0x01FF 0x80, .write 0x01FE 0x02] := by decide

theorem test_bus_10 : bus (step (code [0x60] (cells [(0x01FE, 0x02), (0x01FF, 0x80)] defaults)))
    = [.read 0x0200 0x60, .read 0x01FE 0x02, .read 0x01FF 0x80] := by decide

theorem test_bus_11 : bus (step (code [0x00] (cells [(0xFFFE, 0x00), (0xFFFF, 0x90)] ({ defaults with pc := 0x8000, sp := 0xFF }))))
    = [.read 0x8000 0x00, .write 0x01FF 0x80, .write 0x01FE 0x02, .write 0x01FD 0x30, .read 0xFFFE 0x00, .read 0xFFFF 0x90] := by decide

theorem test_bus_12 : bus (step (code [0x40] (cells [(0x01FD, 0x30), (0x01FE, 0x02), (0x01FF, 0x80)] ({ defaults with sp := 0xFC }))))
    = [.read 0x0200 0x40, .read 0x01FD 0x30, .read 0x01FE 0x02, .read 0x01FF 0x80] := by decide

theorem test_bus_13 : bus (step (code [0xEA] (cells [(0xFFFE, 0x00), (0xFFFF, 0x90)] ({ defaults with pc := 0x0400, sp := 0xFF, irqPending := true }))))
    = [.write 0x01FF 0x04, .write 0x01FE 0x00, .write 0x01FD 0x20, .read 0xFFFE 0x00, .read 0xFFFF 0x90] := by decide

theorem test_bus_15 : bus (step (code [0xD0, 0x10] ({ defaults with pc := 0x0300, p := nvdizc 0 0 0 0 1 0 })))
    = [.read 0x0300 0xD0, .read 0x0301 0x10] := by decide

/-! ### Reset, the halted state and the interface -/

/-- S-1 of section 4. -/
theorem test_reset_from_any_state :
    (fun t : State => (t.pc, [t.a, t.x, t.y, t.sp, packP true t.p, t.haltOpcode], [t.nmiPending, t.irqPending, t.halted],
        t.events, t.byteAt 0x0150))
      (hostReset (cells [(0xFFFC, 0x00), (0xFFFD, 0x80), (0x0150, 0xAB)]
        { defaults with
          pc := 0x1234, a := 0x55, x := 0x01, y := 0x02, sp := 0x10, p := nvdizc 1 1 1 0 1 1, nmiPending := true
          irqPending := true, halted := true, haltOpcode := 0x02 }))
    = (0x8000, [0x00, 0x00, 0x00, 0xFF, 0x34, 0x00], [false, false, false], [.read 0xFFFC 0x00, .read 0xFFFD 0x80], 0xAB) := by
  decide

/-- S-4 of section 4: the halted block returns its fault again although an NMI is pending. -/
theorem test_halted_step : step (raiseNMI { defaults with pc := 0x0400, halted := true, haltOpcode := 0x02 })
    = .fault (.illegalOpcode 0x0400 0x02) := rfl

/-- `withFetchWord` runs the word first after reset. -/
theorem test_withFetchWord : seen (step (State.reset.withFetchWord 16 0b10000000_10101001))
    = some ⟨0x0002, [0x80, 0x00, 0x00, 0xFF], nvdizc 1 0 0 1 0 0, [], [false, false, false], some (.ok 2)⟩ := by
  decide

/-! ### Witnesses: a concrete case that meets the hypotheses of each statement, clause by clause -/

/-- A platform that intercepts 0x2000 to 0x3FFF. -/
def withIo : State := { defaults with cfg := { Config.default with ioMap := [⟨0x2000, 0x3FFF⟩] } }

/-- A state with every register and flag away from its reset value. -/
def busy : State :=
  { defaults with pc := 0xFFFF, a := 0x80, x := 0x01, y := 0xFF, sp := 0x00, p := nvdizc 1 1 1 0 1 1, nmiPending := true, irqPending := true }

theorem witness_ResetStateIsResetOfBlankImage :
    busy.mem = [] ∧ busy.cfg = Config.default ∧ busy.past = [] ∧ busy.events = [] ∧ busy ≠ State.reset := by decide

theorem witness_ResetEstablishesInvariant : (cells [(0xFFFC, 0x00), (0xFFFD, 0x80), (0x0000, 0x01)] busy).mem.wf = true := by
  decide

theorem witness_StepKeepsInvariant : State.reset.Inv ∧ State.StepsOn State.reset :=
  ⟨⟨rfl, fun h => by cases h⟩, _, rfl⟩

/-- The invariant in a state that IS halted. -/
theorem witness_StepKeepsInvariant_halted :
    State.Inv { defaults with halted := true, haltOpcode := 0x02, result := some (.illegalOpcode 0x0200 0x02) } :=
  ⟨rfl, fun _ => by decide⟩

theorem witness_DecodeAfterEncode :
    WellFormed (.adcAbsX 0xFFFF) = true ∧ WellFormed (.ldaImm 0x00) = true ∧ WellFormed (.invalid 0xFF) = true := by decide

theorem witness_EncodeAfterDecode : decode [0x6C, 0xFF, 0x12, 0xEA] = .ok (.jmpInd 0x12FF, [0xEA]) := rfl

theorem witness_EveryOpcodeByteHasAnEntry :
    invalidOpcodes.contains 0x02 = true ∧ invalidOpcodes.contains 0xFF = true
      ∧ invalidOpcodes.contains 0x00 = false ∧ invalidOpcodes.contains 0xFE = false := by decide

/-- At 0xFFFF, so that the two operand bytes lie at 0x0000 and 0x0001. -/
theorem witness_StepRunsDecodedInstruction :
    let s := code [0xAD, 0x34, 0x12] { defaults with pc := 0xFFFF }
    s.halted = false ∧ takesInterrupt s = false
      ∧ (∀ k < 1 + formLen (Instr.ldaAbs 0x1234).form, intercepted (s.pc + BitVec.ofNat 16 k) s = false)
      ∧ decode [s.byteAt s.pc, s.byteAt (s.pc + 1), s.byteAt (s.pc + 2)] = .ok (.ldaAbs 0x1234, []) :=
  ⟨rfl, rfl, fun _ _ => rfl, rfl⟩

/-- At 0xFFFF, an address of the host's. -/
theorem witness_StepRunsWhatTheBusAnswers :
    let s : State := { defaults with pc := 0xFFFF, cfg := { Config.default with ioMap := [⟨0xFFFF, 0xFFFF⟩] } }
    s.halted = false ∧ takesInterrupt s = false ∧ intercepted s.pc s = true := by decide

theorem witness_StepStopsOnlyWhenHalted : State.halted { busy with halted := true } = true ∧ State.StepsOn busy :=
  ⟨rfl, _, rfl⟩

theorem witness_StepReturnsCycleCount :
    (State.StepsOn busy ∧ takesInterrupt busy = true)
      ∧ (State.StepsOn (code [0xEA] defaults) ∧ takesInterrupt (code [0xEA] defaults) = false
        ∧ (fetch (beginEvents (code [0xEA] defaults))).1.kind ≠ .invalid)
      ∧ Instr.brk.kind ≠ .invalid :=
  ⟨⟨⟨_, rfl⟩, rfl⟩, ⟨⟨_, rfl⟩, rfl, by decide⟩, by decide⟩

/-- A halted state with both lines raised. -/
theorem witness_WithFetchWordIsRunNext :
    ({ busy with halted := true } : State).mem.wf = true ∧ decodeTableWord 8 0xEA = some .nop := ⟨rfl, rfl⟩

/-- C, Z and N, I, D and V each change somewhere. -/
theorem witness_FlagsChangeOnlyByTheirWriters :
    (∃ t, exec .sec defaults = .next t ∧ t.p.c ≠ defaults.p.c) ∧ (∃ t, exec (.ldaImm 0) defaults = .next t ∧ t.p.z ≠ defaults.p.z)
      ∧ (∃ t, exec (.ldaImm 0x80) defaults = .next t ∧ t.p.n ≠ defaults.p.n)
      ∧ (∃ t, exec .brk defaults = .next t ∧ t.p.i ≠ defaults.p.i) ∧ (∃ t, exec .sed defaults = .next t ∧ t.p.d ≠ defaults.p.d)
      ∧ (∃ t, exec .clv busy = .next t ∧ t.p.v ≠ busy.p.v) :=
  ⟨⟨_, rfl, by decide⟩, ⟨_, rfl, by decide⟩, ⟨_, rfl, by decide⟩, ⟨_, rfl, by decide⟩, ⟨_, rfl, by decide⟩, ⟨_, rfl, by decide⟩⟩

theorem witness_RegistersChangeOnlyByTheirWriters :
    (∃ t, exec (.ldaImm 1) defaults = .next t ∧ t.a ≠ defaults.a) ∧ (∃ t, exec .rolA busy = .next t ∧ t.a ≠ busy.a)
      ∧ (∃ t, exec .dex defaults = .next t ∧ t.x ≠ defaults.x) ∧ (∃ t, exec .iny busy = .next t ∧ t.y ≠ busy.y)
      ∧ (∃ t, exec .pha busy = .next t ∧ t.sp ≠ busy.sp) :=
  ⟨⟨_, rfl, by decide⟩, ⟨_, rfl, by decide⟩, ⟨_, rfl, by decide⟩, ⟨_, rfl, by decide⟩, ⟨_, rfl, by decide⟩⟩

/-- A store at the top of memory, a push at the wrap, and the deepest slot of JSR and of BRK. -/
theorem witness_MemoryChangesOnlyWhereStored :
    (∃ t, exec (.staAbs 0xFFFF) busy = .next t ∧ t.byteAt 0xFFFF ≠ busy.byteAt 0xFFFF)
      ∧ (∃ t, exec .pha busy = .next t ∧ t.byteAt 0x0100 ≠ busy.byteAt 0x0100)
      ∧ (∃ t, exec (.jsr 0x9000) busy = .next t ∧ t.byteAt 0x01FF ≠ busy.byteAt 0x01FF)
      ∧ (∃ t, exec .brk busy = .next t ∧ t.byteAt 0x01FE ≠ busy.byteAt 0x01FE) :=
  ⟨⟨_, rfl, by decide⟩, ⟨_, rfl, by decide⟩, ⟨_, rfl, by decide⟩, ⟨_, rfl, by decide⟩⟩

theorem witness_InstructionsLeaveLatchesAndHaltMarks :
    (∃ t, exec (.incAbs 0xFFFF) busy = .next t) ∧ (Instr.incAbs 0xFFFF).kind ≠ .invalid := ⟨⟨_, rfl⟩, by decide⟩

theorem witness_NoInstructionButPhpAndBrkReadsDecimal :
    (Instr.adcImm 0x01).kind ∉ [Kind.php, .brk] ∧ ∃ t, exec (.adcImm 0x01) { busy with a := 0x09 } = .next t :=
  ⟨by decide, _, rfl⟩

/-- BRK in a state with D set; an NMI taken there; and an IRQ taken where I is clear. -/
theorem witness_DecimalFlagReachesThePushedStatusAlone :
    (busy.p.d = true ∧ intercepted 0xFFFE busy = false ∧ intercepted 0xFFFF busy = false)
      ∧ (busy.halted = false ∧ takesInterrupt busy = true ∧ busy.nmiPending = true
        ∧ intercepted 0xFFFA busy = false ∧ intercepted (0xFFFA + 1) busy = false)
      ∧ (let s : State := { defaults with irqPending := true }
         s.halted = false ∧ takesInterrupt s = true ∧ s.nmiPending = false
          ∧ intercepted 0xFFFE s = false ∧ intercepted (0xFFFE + 1) s = false) := by decide

/-- Both ends of an intercepted range, and the addresses beside it. -/
theorem witness_BusReadsLastWrite :
    intercepted 0x1FFF withIo = false ∧ intercepted 0x2000 withIo = true ∧ intercepted 0x3FFF withIo = true
      ∧ intercepted 0x4000 withIo = false ∧ withIo.mem.wf = true ∧ (0x2000 : Word) ≠ 0x1FFF := by decide

theorem witness_PullGivesBackPush : intercepted (stackAddr busy.sp) busy = false ∧ busy.mem.wf = true := ⟨rfl, rfl⟩

/-- The pointer 0xFF in both modes, so that its second byte lies at 0x00. -/
theorem witness_IndirectEffectiveAddresses :
    0xFF = ((0xFE : Byte).toNat + busy.x.toNat) % 256 ∧ 0x00 = ((0xFF : Byte).toNat + busy.x.toNat) % 256
      ∧ 0xFF = (0xFF : Byte).toNat := by decide

theorem witness_AdcAddsWithCarry :
    (Instr.adcImm 0xFF).view = (.adc, (Source.imm 0xFF).form) ∧ (Instr.adcIndY 0xFF).view = (.adc, (Source.mem (.indY 0xFF)).form) :=
  ⟨rfl, rfl⟩

/-- The two operands that make the sum 128, just past the range. -/
theorem witness_AdcOverflowIsSignedOverflow :
    (Instr.adcImm 0x01).view = (.adc, (Source.imm 0x01).form)
      ∧ (0x7F : Byte).toInt + (readSource (.imm 0x01) { busy with a := 0x7F, p := nvdizc 0 0 0 0 0 0 }).1.toInt = 128 :=
  ⟨rfl, by decide⟩

theorem witness_SbcSubtractsWithBorrow :
    (Instr.sbcImm 0x00).view = (.sbc, (Source.imm 0x00).form) ∧ (Instr.sbcAbsX 0xFFFF).view = (.sbc, (Source.mem (.absX 0xFFFF)).form) :=
  ⟨rfl, rfl⟩

theorem witness_CompareSetsCarryZeroNegative :
    ((Kind.cmp, busy.a) ∈ [(Kind.cmp, busy.a), (.cpx, busy.x), (.cpy, busy.y)]
        ∧ (Instr.cmpImm 0x80).view = (.cmp, (Source.imm 0x80).form))
      ∧ ((Kind.cpx, busy.x) ∈ [(Kind.cmp, busy.a), (.cpx, busy.x), (.cpy, busy.y)]
        ∧ (Instr.cpxZp 0xFF).view = (.cpx, (Source.mem (.zp 0xFF)).form))
      ∧ ((Kind.cpy, busy.y) ∈ [(Kind.cmp, busy.a), (.cpx, busy.x), (.cpy, busy.y)]
        ∧ (Instr.cpyAbs 0xFFFF).view = (.cpy, (Source.mem (.abs 0xFFFF)).form)) := by decide

theorem witness_ShiftsAndRotates :
    (Instr.aslZp 0xFF).view = (.asl, .mem (.zp 0xFF)) ∧ (Instr.lsrZpX 0xFF).view = (.lsr, .mem (.zpX 0xFF))
      ∧ (Instr.rolAbs 0xFFFF).view = (.rol, .mem (.abs 0xFFFF)) ∧ (Instr.rorAbsX 0xFFFF).view = (.ror, .mem (.absX 0xFFFF)) :=
  ⟨rfl, rfl, rfl, rfl⟩

theorem witness_IncDecMemory :
    (Instr.incZpX 0xFF).view = (.inc, .mem (.zpX 0xFF)) ∧ (Instr.decAbsX 0xFFFF).view = (.dec, .mem (.absX 0xFFFF)) := ⟨rfl, rfl⟩

theorem witness_LogicOnTheAccumulator :
    (Instr.andImm 0xFF).view = (.and, (Source.imm 0xFF).form) ∧ (Instr.oraIndX 0xFF).view = (.ora, (Source.mem (.indX 0xFF)).form)
      ∧ (Instr.eorAbsY 0xFFFF).view = (.eor, (Source.mem (.absY 0xFFFF)).form) := ⟨rfl, rfl, rfl⟩

theorem witness_BitTestsWithoutStoring :
    (Instr.bitZp 0xFF).view = (.bit, .mem (.zp 0xFF)) ∧ (Instr.bitAbs 0xFFFF).view = (.bit, .mem (.abs 0xFFFF)) := ⟨rfl, rfl⟩

theorem witness_LoadsWriteRegister :
    (Instr.ldaIndY 0xFF).view = (.lda, (Source.mem (.indY 0xFF)).form) ∧ (Instr.ldxZpY 0xFF).view = (.ldx, (Source.mem (.zpY 0xFF)).form)
      ∧ (Instr.ldyImm 0x00).view = (.ldy, (Source.imm 0x00).form) := ⟨rfl, rfl, rfl⟩

theorem witness_StoresWriteMemory :
    ((Kind.sta, busy.a) ∈ [(Kind.sta, busy.a), (.stx, busy.x), (.sty, busy.y)]
        ∧ (Instr.staIndX 0xFF).view = (.sta, .mem (.indX 0xFF)))
      ∧ ((Kind.stx, busy.x) ∈ [(Kind.sta, busy.a), (.stx, busy.x), (.sty, busy.y)]
        ∧ (Instr.stxZpY 0xFF).view = (.stx, .mem (.zpY 0xFF)))
      ∧ ((Kind.sty, busy.y) ∈ [(Kind.sta, busy.a), (.stx, busy.x), (.sty, busy.y)]
        ∧ (Instr.styAbs 0xFFFF).view = (.sty, .mem (.abs 0xFFFF))) := by decide

/-- A store to plain memory at 0x1FFF and to the intercepted 0x2000. -/
theorem witness_StoringFormsFrame :
    (Instr.staAbs 0x1FFF).form = .mem (.abs 0x1FFF)
      ∧ (Instr.staAbs 0x1FFF).kind ∈ [Kind.sta, .stx, .sty, .inc, .dec, .asl, .lsr, .rol, .ror]
      ∧ withIo.mem.wf = true ∧ intercepted (effectiveAddress (.abs 0x1FFF) withIo) withIo = false
      ∧ intercepted (effectiveAddress (.abs 0x2000) withIo) withIo = true ∧ (0x2000 : Word) ≠ effectiveAddress (.abs 0x1FFF) withIo := by
  decide

/-- Each branch, with its condition true in one state and false in the other. -/
theorem witness_BranchesTakenOrNot :
    (∀ k ∈ [Kind.bcc, .bcs, .beq, .bne, .bmi, .bpl, .bvc, .bvs], ∃ i ∈ [Instr.bcc 0x80, .bcs 0x80, .beq 0x80, .bne 0x80,
        .bmi 0x80, .bpl 0x80, .bvc 0x80, .bvs 0x80], i.view = (k, .mem (.rel 0x80)))
      ∧ (∀ k ∈ [Kind.bcc, .bcs, .beq, .bne, .bmi, .bpl, .bvc, .bvs], ∀ cond : Bool, ∃ s ∈ [defaults, busy],
        (k, cond) ∈ [(Kind.bcc, !s.p.c), (.bcs, s.p.c), (.beq, s.p.z), (.bne, !s.p.z), (.bmi, s.p.n), (.bpl, !s.p.n),
          (.bvc, !s.p.v), (.bvs, s.p.v)]) := by decide

theorem witness_JmpGoesToEffectiveAddress :
    (Instr.jmpAbs 0xFFFF).view = (.jmp, .mem (.abs 0xFFFF)) ∧ (Instr.jmpInd 0x12FF).view = (.jmp, .mem (.ind 0x12FF)) := ⟨rfl, rfl⟩

theorem witness_JsrPushesReturnAddress :
    busy.mem.wf = true ∧ intercepted (stackAddr busy.sp) busy = false ∧ intercepted (stackAddr (busy.sp - 1)) busy = false
      ∧ (0x01FE : Word) ≠ stackAddr busy.sp ∧ (0x01FE : Word) ≠ stackAddr (busy.sp - 1) := by decide

theorem witness_RtsUndoesJsr :
    busy.mem.wf = true ∧ intercepted (stackAddr busy.sp) busy = false ∧ intercepted (stackAddr (busy.sp - 1)) busy = false
      ∧ ∃ t, exec (.jsr 0x9000) busy = .next t := ⟨rfl, rfl, rfl, _, rfl⟩

theorem witness_PushesWriteTheStack :
    (Instr.pha, busy.a) ∈ [(Instr.pha, busy.a), (.php, packP true busy.p)]
      ∧ (Instr.php, packP true busy.p) ∈ [(Instr.pha, busy.a), (.php, packP true busy.p)]
      ∧ busy.mem.wf = true ∧ intercepted (stackAddr busy.sp) busy = false ∧ (0x01FF : Word) ≠ stackAddr busy.sp := by decide

theorem witness_PlaUndoesPha :
    busy.mem.wf = true ∧ intercepted (stackAddr busy.sp) busy = false ∧ ∃ t, exec .pha busy = .next t := ⟨rfl, rfl, _, rfl⟩

/-- Only the three slots need be plain: a stack pointer at its wrap, on a platform that intercepts the rest of page 1. -/
def stackIo : State := { busy with cfg := { Config.default with ioMap := [⟨0x0101, 0x01FD⟩] } }

theorem stackIo_slots_plain :
    ∀ a ∈ [stackAddr stackIo.sp, stackAddr (stackIo.sp - 1), stackAddr (stackIo.sp - 2)], intercepted a stackIo = false := by
  intro a ha
  simp only [List.mem_cons, List.not_mem_nil, or_false] at ha
  obtain rfl | rfl | rfl := ha <;> rfl

theorem witness_BrkEntersThroughIrqVector :
    stackIo.mem.wf = true
      ∧ (∀ a ∈ [stackAddr stackIo.sp, stackAddr (stackIo.sp - 1), stackAddr (stackIo.sp - 2)], intercepted a stackIo = false)
      ∧ intercepted 0x01FD stackIo = true
      ∧ (0x01FD : Word) ∉ [stackAddr stackIo.sp, stackAddr (stackIo.sp - 1), stackAddr (stackIo.sp - 2)] :=
  ⟨rfl, stackIo_slots_plain, rfl, by decide⟩

theorem witness_RtiUndoesInterruptEntry :
    busy.mem.wf = true ∧ (∀ q : Byte, intercepted (stackAddr q) busy = false) ∧ (∃ t, exec .brk busy = .next t)
      ∧ busy.halted = false ∧ takesInterrupt busy = true ∧ ∃ t, step busy = .next t :=
  ⟨rfl, fun _ => rfl, ⟨_, rfl⟩, rfl, rfl, _, rfl⟩

/-- NMI with I set and an IRQ beside it; and an IRQ alone with I clear. -/
theorem witness_InterruptEntry :
    (busy.halted = false ∧ busy.nmiPending = true)
      ∧ (let s : State := { defaults with irqPending := true }; s.halted = false ∧ s.irqPending = true ∧ s.p.i = false)
      ∧ stackIo.mem.wf = true ∧ stackIo.halted = false ∧ stackIo.nmiPending = true
      ∧ (∀ a ∈ [stackAddr stackIo.sp, stackAddr (stackIo.sp - 1), stackAddr (stackIo.sp - 2)], intercepted a stackIo = false)
      ∧ (0x01FD : Word) ∉ [stackAddr stackIo.sp, stackAddr (stackIo.sp - 1), stackAddr (stackIo.sp - 2)] :=
  ⟨⟨rfl, rfl⟩, ⟨rfl, rfl, rfl⟩, rfl, rfl, rfl, stackIo_slots_plain, by decide⟩

theorem witness_MaskedIrqStaysPending :
    let s : State := { defaults with irqPending := true, p := nvdizc 0 0 0 1 0 0 }
    s.halted = false ∧ s.nmiPending = false ∧ s.irqPending = true ∧ s.p.i = true := ⟨rfl, rfl, rfl, rfl⟩

theorem witness_IrqTakenRightAfterCli :
    let s := code [0x58] { defaults with pc := 0xFFFF, irqPending := true, p := nvdizc 0 0 0 1 0 0 }
    s.halted = false ∧ s.nmiPending = false ∧ s.irqPending = true ∧ s.p.i = true
      ∧ busValue s.pc (beginEvents s) = 0x58 := ⟨rfl, rfl, rfl, rfl, rfl⟩

theorem witness_InvalidOpcodeFollowsPolicy :
    defaults.cfg.illegalPolicy = .halt
      ∧ State.cfg { defaults with cfg := { Config.default with illegalPolicy := .skip } } = ⟨.skip, true, 0xFF, []⟩ := ⟨rfl, rfl⟩

theorem witness_InvalidFetchHaltsUntilReset :
    let s := code [0xFF] { defaults with pc := 0xFFFF }
    s.halted = false ∧ takesInterrupt s = false ∧ busValue s.pc (beginEvents s) = 0xFF
      ∧ invalidOpcodes.contains 0xFF = true ∧ s.cfg.illegalPolicy = .halt :=
  ⟨rfl, rfl, rfl, by decide, rfl⟩


end Sys2Proof.Tests
end

section
/-! PROOFS. Arithmetic and compare (42_arith_compare.md): the flag computations said in numbers, the dispatch of every
instruction that reads one operand, and the statements O30, O32 and O33. -/

namespace Sys2Proof.Machine

/-! ### Flags in numbers -/

/-- The sign bit of a byte is its weight of 128 (R108). -/
theorem getLsbD_seven_eq_decide (v : Byte) : v.getLsbD 7 = decide (128 ≤ v.toNat) := by
  simpa [BitVec.msb_eq_getLsbD_last] using BitVec.msb_eq_decide v

/-- Equality of bytes is equality of their numbers. -/
theorem byte_beq_eq_decide (r m : Byte) : (r == m) = decide (r.toNat = m.toNat) := by
  rw [Bool.beq_eq_decide_eq, decide_eq_decide, BitVec.toNat_inj]

/-- `SetZN` is the update the statements name (R108). -/
theorem setZN_eq_withZN (v : Byte) (p : Flags) : setZN v p = p.withZN v := by
  rw [setZN, Flags.withZN, getLsbD_seven_eq_decide, byte_beq_eq_decide]
  rfl

/-- The compare flags, with N as bit 7 of the difference modulo 256 (R122 to R124). -/
theorem compareFlags_eq (r m : Byte) (p : Flags) :
    compareFlags r m p = { p with
      c := decide (m.toNat ≤ r.toNat)
      z := decide (r.toNat = m.toNat)
      n := decide (128 ≤ (r.toNat + (256 - m.toNat)) % 256) } := by
  rw [compareFlags, getLsbD_seven_eq_decide, byte_beq_eq_decide, BitVec.toNat_sub, Nat.add_comm (2 ^ 8 - m.toNat)]

/-! ### The sum and the difference in numbers -/

/-- Nine bits hold `A + M + C` exactly (R120). -/
theorem nineBitSum_toNat (a m : Byte) (c : Bool) :
    (a.setWidth 9 + m.setWidth 9 + (BitVec.ofBool c).setWidth 9).toNat = a.toNat + m.toNat + c.toNat := by
  have ha := a.isLt
  have hm := m.isLt
  have hc := c.toNat_le
  simp only [BitVec.toNat_add, BitVec.toNat_setWidth, BitVec.toNat_ofBool]
  omega

/-- The result is the low byte of the sum (R120). -/
theorem addWithCarry_res (a m : Byte) (c : Bool) :
    (addWithCarry a m c).res = BitVec.ofNat 8 (a.toNat + m.toNat + c.toNat) := by
  rw [← nineBitSum_toNat]
  rfl

/-- The carry out is a sum past 255 (R120). -/
theorem addWithCarry_carry (a m : Byte) (c : Bool) :
    (addWithCarry a m c).carry = decide (255 < a.toNat + m.toNat + c.toNat) := by
  rw [← nineBitSum_toNat]
  exact (BitVec.msb_eq_getLsbD_last _).symm.trans (BitVec.msb_eq_decide _)

/-- The overflow is the rule's formula over the result (R120). -/
theorem addWithCarry_overflow (a m : Byte) (c : Bool) :
    (addWithCarry a m c).overflow
      = ((a ^^^ (addWithCarry a m c).res) &&& (m ^^^ (addWithCarry a m c).res)).getLsbD 7 := rfl

/-- The ones' complement of a byte is 255 less it. -/
theorem xor_ff_toNat (m : Byte) : (m ^^^ 0xFF).toNat = 255 - m.toNat := by
  rw [show (0xFF : Byte) = BitVec.allOnes 8 from rfl, BitVec.xor_allOnes, BitVec.toNat_not]

/-- The result is `A - M - (1 - C)` modulo 256 (R121). -/
theorem subWithBorrow_res (a m : Byte) (c : Bool) :
    (subWithBorrow a m c).res = BitVec.ofInt 8 ((a.toNat : Int) - m.toNat - (1 - c.toNat : Nat)) := by
  have hm := m.isLt
  have hc := c.toNat_le
  have hsum : ((a.toNat + (255 - m.toNat) + c.toNat : Nat) : Int)
      = (a.toNat : Int) - m.toNat - (1 - c.toNat : Nat) + 256 := by omega
  rw [subWithBorrow, addWithCarry_res, xor_ff_toNat, ← BitVec.ofInt_natCast, hsum]
  apply BitVec.eq_of_toInt_eq
  rw [BitVec.toInt_ofInt, BitVec.toInt_ofInt]
  exact Int.add_bmod_right _ _

/-- The carry out is set when there is no borrow (R121). -/
theorem subWithBorrow_carry (a m : Byte) (c : Bool) :
    (subWithBorrow a m c).carry = decide (m.toNat + (1 - c.toNat) ≤ a.toNat) := by
  have hm := m.isLt
  have hc := c.toNat_le
  rw [subWithBorrow, addWithCarry_carry, xor_ff_toNat, decide_eq_decide]
  omega

/-- Where A and the result differ, the complement of M differs from the result just where M differs from A. -/
theorem complement_overflow_bit : ∀ a m res : Bool, ((a ^^ res) && (m ^^ true ^^ res)) = ((a ^^ m) && (a ^^ res)) := by
  decide

/-- The overflow of the sum with the complement is the second form of R121. -/
theorem subWithBorrow_overflow (a m : Byte) (c : Bool) :
    (subWithBorrow a m c).overflow = ((a ^^^ m) &&& (a ^^^ (subWithBorrow a m c).res)).getLsbD 7 := by
  rw [subWithBorrow, addWithCarry_overflow]
  simp only [BitVec.getLsbD_and, BitVec.getLsbD_xor]
  exact complement_overflow_bit _ _ _

/-- The flags of ADC and SBC, as the update the statements name. -/
theorem sumFlags_eq (r : Sum) (p : Flags) :
    sumFlags r p = { p with c := r.carry, v := r.overflow }.withZN r.res := setZN_eq_withZN _ _

/-! ### The dispatch of an instruction that reads one operand -/

/-- What each operation kind that reads one operand by `ReadOperand` (R104) and writes none does with it. BIT, whose meaning
`bitTest` takes a memory mode and not a `Source`, is not among them. -/
def readingMeaning : Kind → Option (Source → State → State)
  | .adc => some adc
  | .sbc => some sbc
  | .cmp => some fun src s => compareWith s.a src s
  | .cpx => some fun src s => compareWith s.x src s
  | .cpy => some fun src s => compareWith s.y src s
  | .and => some (logic (· &&& ·))
  | .ora => some (logic (· ||| ·))
  | .eor => some (logic (· ^^^ ·))
  | .lda => some loadA
  | .ldx => some loadX
  | .ldy => some loadY
  | _ => none

/-- In every mode, `exec` runs the meaning of a reading kind on the operand the instruction names (R111). -/
theorem exec_of_readingMeaning {i : Instr} {k : Kind} {src : Source} {f : Source → State → State} (s : State)
    (hf : readingMeaning k = some f) (hi : i.view = (k, src.form)) : exec i s = .next (f src s) := by
  cases src with
  | imm v => cases i <;> cases hi <;> cases hf <;> rfl
  | mem m => cases i <;> cases hi <;> cases hf <;> rfl

/-- The next instruction stands past the operand bytes of the mode (R106). -/
theorem nextPc_of_view {i : Instr} {k : Kind} {fm : Form} (s : State) (hi : i.view = (k, fm)) :
    nextPc i s = s.pc + 1 + BitVec.ofNat 16 (formLen fm) := by
  rw [nextPc, Instr.form, hi]

/-- A compare of any kind and mode, once its kind's meaning is `compareWith` of a register (R122 to R124). -/
theorem exec_of_compareWith {i : Instr} {k : Kind} {src : Source} {s : State} {reg : State → Byte}
    (hk : readingMeaning k = some fun src s => compareWith (reg s) src s) (hi : i.view = (k, src.form)) :
    exec i s = .next { s with
      p := compareFlags (reg s) (readSource src s).1 s.p
      pc := nextPc i s
      events := (readSource src s).2.events } := by
  rw [exec_of_readingMeaning s hk hi, nextPc_of_view s hi, compareWith_eq]

end Sys2Proof.Machine

namespace Sys2Proof.Proofs

open Sys2Proof Sys2Proof.Machine

/-- Settles O30: ADC in every mode is `adc`, whose sum the lemmas about `addWithCarry` give in numbers. -/
theorem adcAddsWithCarry : Obligations.AdcAddsWithCarry := by
  intro i src s hi
  simp only [exec_of_readingMeaning s rfl hi, nextPc_of_view s hi, adc_eq, sumFlags_eq, addWithCarry_overflow,
    addWithCarry_res, addWithCarry_carry]

/-- Settles O32: SBC in every mode is `sbc`, the sum with the ones' complement of the operand (90_conflicts.md C2), which
the lemmas about `subWithBorrow` read as a difference with borrow. -/
theorem sbcSubtractsWithBorrow : Obligations.SbcSubtractsWithBorrow := by
  intro i src s hi
  simp only [exec_of_readingMeaning s rfl hi, nextPc_of_view s hi, sbc_eq, sumFlags_eq, subWithBorrow_overflow,
    subWithBorrow_res, subWithBorrow_carry]

/-- Settles O33: the three kinds are one compare, of A, X and Y. -/
theorem compareSetsCarryZeroNegative : Obligations.CompareSetsCarryZeroNegative := by
  intro i src s k reg hk hi
  simp only [List.mem_cons, List.not_mem_nil, or_false, Prod.mk.injEq] at hk
  simp only [← compareFlags_eq]
  obtain ⟨rfl, rfl⟩ | ⟨rfl, rfl⟩ | ⟨rfl, rfl⟩ := hk
  · exact exec_of_compareWith (reg := State.a) rfl hi
  · exact exec_of_compareWith (reg := State.x) rfl hi
  · exact exec_of_compareWith (reg := State.y) rfl hi

end Sys2Proof.Proofs
end

section
/-! PROOFS. Shifts and rotates (43_shift_rotate.md): the four byte operations said in numbers, the dispatch of every
instruction that shifts, and the statement O34. -/

namespace Sys2Proof.Machine

/-! ### The shifted byte and the bit shifted out, in numbers -/

/-- The low bit of a byte says whether it is odd. -/
theorem getLsbD_zero_eq_decide (v : Byte) : v.getLsbD 0 = decide (v.toNat % 2 = 1) := by
  rw [BitVec.getLsbD, Nat.testBit_zero]

/-- The carry at bit 0 weighs 1. -/
theorem flagAt_zero_toNat (c : Bool) : (flagAt c 0).toNat = c.toNat := by
  cases c <;> rfl

/-- The carry at bit 7 weighs 128. -/
theorem flagAt_seven_toNat (c : Bool) : (flagAt c 7).toNat = 2 ^ 7 * c.toNat := by
  cases c <;> rfl

/-- A left shift leaves bit 0 vacant, so the carry that enters there is added (R132). -/
theorem shiftLeft_or_flagAt (m : Byte) (c : Bool) :
    m <<< 1 ||| flagAt c 0 = BitVec.ofNat 8 (2 * m.toNat + c.toNat) := by
  have hc : c.toNat < 2 ^ 1 := c.toNat_lt
  have hlow : c.toNat % 2 ^ 8 = c.toNat := Nat.mod_eq_of_lt (by omega)
  apply BitVec.eq_of_toNat_eq
  calc (m <<< 1 ||| flagAt c 0).toNat
      = m.toNat <<< 1 % 2 ^ 8 ||| c.toNat % 2 ^ 8 := by
        rw [BitVec.toNat_or, BitVec.toNat_shiftLeft, flagAt_zero_toNat, hlow]
    _ = (m.toNat <<< 1 + c.toNat) % 2 ^ 8 := by
        rw [← Nat.or_mod_two_pow, Nat.shiftLeft_add_eq_or_of_lt hc]
    _ = (BitVec.ofNat 8 (2 * m.toNat + c.toNat)).toNat := by
        rw [BitVec.toNat_ofNat, Nat.shiftLeft_eq, Nat.pow_one, Nat.mul_comm]

/-- A right shift leaves bit 7 vacant, so the carry that enters there is added (R133). -/
theorem flagAt_or_shiftRight (m : Byte) (c : Bool) :
    flagAt c 7 ||| m >>> 1 = BitVec.ofNat 8 (m.toNat / 2 + 128 * c.toNat) := by
  have hm := m.isLt
  have hc := c.toNat_le
  have hhalf : m.toNat / 2 < 2 ^ 7 := by omega
  apply BitVec.eq_of_toNat_eq
  calc (flagAt c 7 ||| m >>> 1).toNat
      = 2 ^ 7 * c.toNat ||| m.toNat / 2 := by
        rw [BitVec.toNat_or, flagAt_seven_toNat, BitVec.toNat_ushiftRight, Nat.shiftRight_eq_div_pow, Nat.pow_one]
    _ = m.toNat / 2 + 128 * c.toNat := by
        rw [← Nat.two_pow_add_eq_or_of_lt hhalf, Nat.add_comm]
    _ = (BitVec.ofNat 8 (m.toNat / 2 + 128 * c.toNat)).toNat := by
        rw [BitVec.toNat_ofNat, Nat.mod_eq_of_lt (by omega)]

/-- ROL in numbers (R132). -/
theorem rolByte_eq (m : Byte) (c : Bool) :
    rolByte m c = (BitVec.ofNat 8 (2 * m.toNat + c.toNat), decide (128 ≤ m.toNat)) := by
  rw [rolByte, shiftLeft_or_flagAt, getLsbD_seven_eq_decide]

/-- ROR in numbers (R133). -/
theorem rorByte_eq (m : Byte) (c : Bool) :
    rorByte m c = (BitVec.ofNat 8 (m.toNat / 2 + 128 * c.toNat), decide (m.toNat % 2 = 1)) := by
  rw [rorByte, flagAt_or_shiftRight, getLsbD_zero_eq_decide]

/-- ASL is ROL with a clear carry going in (R130). -/
theorem aslByte_eq_rolByte (m : Byte) (c : Bool) : aslByte m c = rolByte m false :=
  congrArg (·, m.getLsbD 7) BitVec.or_zero.symm

/-- LSR is ROR with a clear carry going in (R131). -/
theorem lsrByte_eq_rorByte (m : Byte) (c : Bool) : lsrByte m c = rorByte m false :=
  congrArg (·, m.getLsbD 0) BitVec.zero_or.symm

/-- ASL in numbers (R130). -/
theorem aslByte_eq (m : Byte) (c : Bool) :
    aslByte m c = (BitVec.ofNat 8 (2 * m.toNat), decide (128 ≤ m.toNat)) :=
  (aslByte_eq_rolByte m c).trans (rolByte_eq m false)

/-- LSR in numbers (R131). -/
theorem lsrByte_eq (m : Byte) (c : Bool) :
    lsrByte m c = (BitVec.ofNat 8 (m.toNat / 2), decide (m.toNat % 2 = 1)) :=
  (lsrByte_eq_rorByte m c).trans (rorByte_eq m false)

/-- The flags of a shift or rotate, as the update the statements name. -/
theorem shiftFlags_eq (res : Byte) (out : Bool) (p : Flags) :
    shiftFlags res out p = { p with c := out }.withZN res := setZN_eq_withZN _ _

/-! ### The dispatch of an instruction that shifts -/

/-- What each of the four shifting kinds does to its operand byte and the carry. -/
def shiftMeaning : Kind → Option (Byte → Bool → Byte × Bool)
  | .asl => some aslByte
  | .lsr => some lsrByte
  | .rol => some rolByte
  | .ror => some rorByte
  | _ => none

/-- In every mode, `exec` runs the shift of the kind on the operand the instruction names (R111). -/
theorem exec_of_shiftMeaning {i : Instr} {k : Kind} {t : Target} {f : Byte → Bool → Byte × Bool} (s : State)
    (hf : shiftMeaning k = some f) (hi : i.view = (k, t.form)) : exec i s = .next (shift f t s) := by
  cases t with
  | acc => cases i <;> cases hi <;> cases hf <;> rfl
  | mem m => cases i <;> cases hi <;> cases hf <;> rfl

/-- A shift of A, once its byte operation is known to give `res` and `out`. -/
theorem exec_shift_acc {i : Instr} {k : Kind} {f : Byte → Bool → Byte × Bool} {s : State} {res : Byte} {out : Bool}
    (hf : shiftMeaning k = some f) (hi : i.view = (k, .acc)) (hr : f s.a s.p.c = (res, out)) :
    exec i s = .next { s with a := res, p := { s.p with c := out }.withZN res, pc := s.pc + 1 } := by
  rw [exec_of_shiftMeaning (t := .acc) s hf hi, shift_acc_eq, hr, shiftFlags_eq, BitVec.add_zero]

/-- A shift of a memory cell, once its byte operation is known to give `res` and `out`: one read and one write of EA. -/
theorem exec_shift_mem {i : Instr} {k : Kind} {f : Byte → Bool → Byte × Bool} {mode : MemMode} {s : State} {res : Byte}
    {out : Bool} (hf : shiftMeaning k = some f) (hi : i.view = (k, .mem mode))
    (hr : f (readSource (.mem mode) s).1 s.p.c = (res, out)) :
    exec i s = .next { s with
      mem := (busWrite (effectiveAddress mode s) res s).mem
      p := { s.p with c := out }.withZN res
      pc := nextPc i s
      events := (readSource (.mem mode) s).2.events ++ [.write (effectiveAddress mode s) res] } := by
  rw [exec_of_shiftMeaning (t := .mem mode) s hf hi, nextPc_of_view s hi, shift_mem_eq, hr, shiftFlags_eq, formLen]

end Sys2Proof.Machine

namespace Sys2Proof.Proofs

open Sys2Proof Sys2Proof.Machine

/-- Settles O34: each kind is one `shift`, of A or of a cell, by the byte operation its lemma gives in numbers. -/
theorem shiftsAndRotates : Obligations.ShiftsAndRotates := by
  refine ⟨fun s => ⟨?_, ?_, ?_, ?_⟩, fun i mode s => ⟨fun hi => ?_, fun hi => ?_, fun hi => ?_, fun hi => ?_⟩⟩
  · exact exec_shift_acc rfl rfl (aslByte_eq _ _)
  · exact exec_shift_acc rfl rfl (lsrByte_eq _ _)
  · exact exec_shift_acc rfl rfl (rolByte_eq _ _)
  · exact exec_shift_acc rfl rfl (rorByte_eq _ _)
  · exact exec_shift_mem rfl hi (aslByte_eq _ _)
  · exact exec_shift_mem rfl hi (lsrByte_eq _ _)
  · exact exec_shift_mem rfl hi (rolByte_eq _ _)
  · exact exec_shift_mem rfl hi (rorByte_eq _ _)

end Sys2Proof.Proofs
end

section
/-! PROOFS. Increment and decrement (44_inc_dec.md): the two byte operations said in numbers, the dispatch of every
instruction that steps a memory cell, and the statements O35 and O36. -/

namespace Sys2Proof.Machine

/-! ### The stepped byte, in numbers -/

/-- One up is one more modulo 256 (R140). -/
theorem byte_add_one_eq (v : Byte) : v + 1 = BitVec.ofNat 8 ((v.toNat + 1) % 256) := by
  apply BitVec.eq_of_toNat_eq
  simp

/-- One down is 255 more modulo 256 (R141). -/
theorem byte_sub_one_eq (v : Byte) : v - 1 = BitVec.ofNat 8 ((v.toNat + 255) % 256) := by
  apply BitVec.eq_of_toNat_eq
  simp [BitVec.toNat_sub, Nat.add_comm]

/-! ### The advance of a one-byte instruction -/

/-- Without operand bytes the next instruction stands one byte on (R106). -/
theorem advance_zero_eq (s : State) : advance 0 s = { s with pc := s.pc + 1 } := by
  rw [advance, BitVec.add_zero]

/-! ### The dispatch of an instruction that steps a memory cell -/

/-- What INC and DEC do to the byte of their cell. -/
def cellMeaning : Kind → Option (Byte → Byte)
  | .inc => some (· + 1)
  | .dec => some (· - 1)
  | _ => none

/-- In every mode, `exec` steps the cell the instruction names (R111). -/
theorem exec_of_cellMeaning {i : Instr} {k : Kind} {m : MemMode} {f : Byte → Byte} (s : State)
    (hf : cellMeaning k = some f) (hi : i.view = (k, .mem m)) : exec i s = .next (stepCell f m s) := by
  cases i <;> cases hi <;> cases hf <;> rfl

/-- A step of a memory cell, once its byte operation is known to give `res`: one read and one write of EA. -/
theorem exec_stepCell {i : Instr} {k : Kind} {f : Byte → Byte} {mode : MemMode} {s : State} {res : Byte}
    (hf : cellMeaning k = some f) (hi : i.view = (k, .mem mode)) (hr : f (readSource (.mem mode) s).1 = res) :
    exec i s = .next { s with
      mem := (busWrite (effectiveAddress mode s) res s).mem
      p := s.p.withZN res
      pc := nextPc i s
      events := (readSource (.mem mode) s).2.events ++ [.write (effectiveAddress mode s) res] } := by
  rw [exec_of_cellMeaning s hf hi, nextPc_of_view s hi, stepCell_eq, hr, setZN_eq_withZN, formLen]

end Sys2Proof.Machine

namespace Sys2Proof.Proofs

open Sys2Proof Sys2Proof.Machine

/-- Settles O35: both kinds are one `stepCell`, by the byte operation its lemma gives in numbers. -/
theorem incDecMemory : Obligations.IncDecMemory := fun _ _ _ =>
  ⟨fun hi => exec_stepCell rfl hi (byte_add_one_eq _), fun hi => exec_stepCell rfl hi (byte_sub_one_eq _)⟩

/-- Settles O36: each of the four steps its register, sets Z and N from it and advances by one byte. -/
theorem incDecIndexRegisters : Obligations.IncDecIndexRegisters := by
  intro s
  simp only [← byte_add_one_eq, ← byte_sub_one_eq, ← setZN_eq_withZN]
  refine ⟨?inx, ?iny, ?dex, ?dey⟩ <;> exact congrArg Host.Outcome.next (advance_zero_eq _)

end Sys2Proof.Proofs
end

section
/-! PROOFS. Logic, bit test, loads and stores (45_logic_load_store.md): the next state of a logic row in the statements'
flags, the dispatch of BIT and of every instruction that only stores, and the statements O37 to O40. -/

namespace Sys2Proof.Machine

/-- A logic row of any kind and mode, once its kind's meaning is `logic` of an operation (R150 to R152). -/
theorem exec_of_logic {i : Instr} {k : Kind} {src : Source} {s : State} {op : Byte → Byte → Byte}
    (hk : readingMeaning k = some (logic op)) (hi : i.view = (k, src.form)) :
    exec i s = .next { s with
      a := op s.a (readSource src s).1
      p := s.p.withZN (op s.a (readSource src s).1)
      pc := nextPc i s
      events := (readSource src s).2.events } := by
  rw [exec_of_readingMeaning s hk hi, nextPc_of_view s hi, logic_eq, setZN_eq_withZN]

/-- In both modes, `exec` runs the bit test on the operand the instruction names (R111). -/
theorem exec_of_view_bit {i : Instr} {m : MemMode} (s : State) (hi : i.view = (.bit, .mem m)) :
    exec i s = .next (bitTest m s) := by
  cases i <;> cases hi <;> rfl

/-- The flags of BIT, with Z as an equation (R153). -/
theorem bitFlags_eq (a m : Byte) (p : Flags) :
    bitFlags a m p = { p with z := decide (a &&& m = 0), v := m.getLsbD 6, n := m.getLsbD 7 } := by
  rw [bitFlags, Bool.beq_eq_decide_eq]

/-- The register that each kind which only stores writes to its cell. -/
def storedRegister : Kind → Option (State → Byte)
  | .sta => some State.a
  | .stx => some State.x
  | .sty => some State.y
  | _ => none

/-- In every mode, `exec` stores the kind's register in the cell the instruction names (R111). -/
theorem exec_of_storedRegister {i : Instr} {k : Kind} {m : MemMode} {reg : State → Byte} (s : State)
    (hk : storedRegister k = some reg) (hi : i.view = (k, .mem m)) : exec i s = .next (store (reg s) m s) := by
  cases i <;> cases hi <;> cases hk <;> rfl

/-- A store of any kind and mode: one write of the kind's register at EA, after the resolver's reads alone (R157 to R159). -/
theorem exec_store {i : Instr} {k : Kind} {mode : MemMode} {s : State} {reg : State → Byte}
    (hk : storedRegister k = some reg) (hi : i.view = (k, .mem mode)) :
    exec i s = .next { s with
      mem := (busWrite (effectiveAddress mode s) (reg s) s).mem
      pc := nextPc i s
      events := (resolve mode s).2.events ++ [.write (effectiveAddress mode s) (reg s)] } := by
  rw [exec_of_storedRegister s hk hi, nextPc_of_view s hi, store_eq, formLen]

end Sys2Proof.Machine

namespace Sys2Proof.Proofs

open Sys2Proof Sys2Proof.Machine

/-- Settles O37: the three kinds are one `logic`, of an operation that the library reads bit by bit. -/
theorem logicOnTheAccumulator : Obligations.LogicOnTheAccumulator := fun _ _ _ =>
  ⟨fun hi => ⟨_, exec_of_logic rfl hi, fun _ _ => BitVec.getLsbD_and⟩,
    fun hi => ⟨_, exec_of_logic rfl hi, fun _ _ => BitVec.getLsbD_or⟩,
    fun hi => ⟨_, exec_of_logic rfl hi, fun _ _ => BitVec.getLsbD_xor⟩⟩

/-- Settles O38: BIT in both modes is `bitTest`, which reads its operand and writes `bitFlags` alone. -/
theorem bitTestsWithoutStoring : Obligations.BitTestsWithoutStoring := by
  intro i mode s hi
  rw [exec_of_view_bit s hi, nextPc_of_view s hi, bitTest_eq, bitFlags_eq, formLen]

/-- Settles O39: each kind is the load of its register, whose Z and N are `SetZN` of the operand. -/
theorem loadsWriteRegister : Obligations.LoadsWriteRegister := by
  intro i src s
  refine ⟨fun hi => ?_, fun hi => ?_, fun hi => ?_⟩
  · rw [exec_of_readingMeaning s rfl hi, nextPc_of_view s hi, loadA_eq, setZN_eq_withZN]
  · rw [exec_of_readingMeaning s rfl hi, nextPc_of_view s hi, loadX_eq, setZN_eq_withZN]
  · rw [exec_of_readingMeaning s rfl hi, nextPc_of_view s hi, loadY_eq, setZN_eq_withZN]

/-- Settles O40: the three kinds are one `store`, of A, X and Y. -/
theorem storesWriteMemory : Obligations.StoresWriteMemory := by
  intro i mode s k reg hk hi
  simp only [List.mem_cons, List.not_mem_nil, or_false, Prod.mk.injEq] at hk
  obtain ⟨rfl, rfl⟩ | ⟨rfl, rfl⟩ | ⟨rfl, rfl⟩ := hk
  · exact exec_store (reg := State.a) rfl hi
  · exact exec_store (reg := State.x) rfl hi
  · exact exec_store (reg := State.y) rfl hi

end Sys2Proof.Proofs
end

section
/-! PROOFS. Control flow (46_control_flow.md): the branch target in numbers, the dispatch of every instruction that branches
and of both rows of JMP, and the statements O42 and O43. -/

namespace Sys2Proof.Machine

/-! ### The branch target, in numbers -/

/-- The branch target is the signed sum of the next instruction's address and the offset, modulo 65536 (R87). -/
theorem effectiveAddress_rel_eq_ofInt (off : Byte) (s : State) :
    effectiveAddress (.rel off) s = BitVec.ofInt 16 ((s.pc.toNat : Int) + 2 + off.toInt) := by
  rw [BitVec.ofInt_add, BitVec.ofInt_add, BitVec.ofInt_natCast, BitVec.ofNat_toNat, BitVec.setWidth_eq]
  rfl

/-- A branch goes to its target if its condition holds, else past its own two bytes (R170). -/
theorem branch_eq_ofInt (cond : Bool) (off : Byte) (s : State) :
    branch cond off s = { s with
      pc := if cond then BitVec.ofInt 16 ((s.pc.toNat : Int) + 2 + off.toInt) else s.pc + 2 } := by
  rw [branch_eq, BitVec.add_assoc s.pc 1, ← effectiveAddress_rel_eq_ofInt]
  rfl

/-! ### The dispatch of an instruction that branches or jumps -/

/-- The condition under which each branching kind is taken, in the flags before it (R171 to R178). -/
def branchCondition : Kind → Flags → Option Bool
  | .bcc, p => some !p.c
  | .bcs, p => some p.c
  | .beq, p => some p.z
  | .bne, p => some !p.z
  | .bmi, p => some p.n
  | .bpl, p => some !p.n
  | .bvc, p => some !p.v
  | .bvs, p => some p.v
  | _, _ => none

/-- `exec` runs every branch as `branch` of its kind's condition (R111). -/
theorem exec_of_branchCondition {i : Instr} {k : Kind} {off : Byte} {cond : Bool} {s : State}
    (hk : branchCondition k s.p = some cond) (hi : i.view = (k, .mem (.rel off))) :
    exec i s = .next (branch cond off s) := by
  cases i <;> cases hi <;> cases hk <;> rfl

/-- In both modes, `exec` runs JMP as `jump` to the place the instruction names (R111). -/
theorem exec_of_view_jmp {i : Instr} {m : MemMode} (s : State) (hi : i.view = (.jmp, .mem m)) :
    exec i s = .next (jump m s) := by
  cases i <;> cases hi <;> rfl

end Sys2Proof.Machine

namespace Sys2Proof.Proofs

open Sys2Proof Sys2Proof.Machine

/-- Settles O42: the eight kinds are one `branch`, of the condition the statement lists for the kind. -/
theorem branchesTakenOrNot : Obligations.BranchesTakenOrNot := by
  intro i off s k cond hk hi
  have hcond : branchCondition k s.p = some cond := by
    simp only [List.mem_cons, List.not_mem_nil, or_false, Prod.mk.injEq] at hk
    obtain ⟨rfl, rfl⟩ | ⟨rfl, rfl⟩ | ⟨rfl, rfl⟩ | ⟨rfl, rfl⟩ | ⟨rfl, rfl⟩ | ⟨rfl, rfl⟩ | ⟨rfl, rfl⟩ | ⟨rfl, rfl⟩ := hk <;>
      rfl
  rw [exec_of_branchCondition hcond hi, branch_eq_ofInt]

/-- Settles O43: JMP in both modes is `jump`, which makes the resolver's reads and no other. -/
theorem jmpGoesToEffectiveAddress : Obligations.JmpGoesToEffectiveAddress := by
  intro i mode s hi
  rw [exec_of_view_jmp s hi, jump_eq]

end Sys2Proof.Proofs
end

section
/-! PROOFS. Stack instructions and register transfers (47_stack_transfer.md): the statement O50. -/

namespace Sys2Proof.Proofs

open Sys2Proof Sys2Proof.Machine

/-- Settles O50: each of the six copies its register and advances by one byte; the five whose destination is not SP set
Z and N from the value, and TXS leaves the flags as they are. -/
theorem transfersCopyRegisters : Obligations.TransfersCopyRegisters := by
  intro s
  simp only [← setZN_eq_withZN]
  refine ⟨?tax, ?tay, ?txa, ?tya, ?tsx, ?txs⟩ <;> exact congrArg Host.Outcome.next (advance_zero_eq _)

end Sys2Proof.Proofs
end

section
/-! PROOFS. The flag instructions and NOP (48_system_flags.md): the statement O54. -/

namespace Sys2Proof.Proofs

open Sys2Proof Sys2Proof.Machine

/-- Settles O54: each of the eight is the advance of a one-byte instruction, from the state with its one flag written,
and for NOP from the state itself. -/
theorem flagInstructionsWriteOneFlag : Obligations.FlagInstructionsWriteOneFlag := by
  intro s
  refine ⟨?clc, ?sec, ?cli, ?sei, ?clv, ?cld, ?sed, ?nop⟩ <;>
    exact congrArg Host.Outcome.next (advance_zero_eq _)

end Sys2Proof.Proofs
end

section
/-! PROOFS. Reset (70_reset_and_hazards.md): what a new event list leaves to the bus, the two reads of the RESET vector, the
step of a running block with nothing pending, and the statement O2. -/

namespace Sys2Proof.Machine

/-! ### The bus at the start of an event list and after a read -/

/-- The history is the same when the last event list has become part of the past (R44). -/
@[simp] theorem history_beginEvents (s : State) : history (beginEvents s) = history s := by
  simp [history, beginEvents]

/-- A bus read records itself at the end of the history (R44). -/
@[simp] theorem history_busRead (a : Word) (s : State) :
    history (busRead a s).2 = history s ++ [.read a (busValue a s)] := by
  simp [history]

/-- So the start of an event list does not change what the bus answers. -/
@[simp] theorem busValue_beginEvents (a : Word) (s : State) : busValue a (beginEvents s) = busValue a s :=
  busValue_congr rfl rfl (history_beginEvents s)

/-- What the bus answers after a read: an intercepted address is answered from a history that holds that read, any other
from the image, which the read does not change (R43, R44). -/
theorem busValue_busRead (a b : Word) (s : State) :
    busValue b (busRead a s).2 =
      if intercepted b s then Config.ioRead b (history s ++ [.read a (busValue a s)]) else s.byteAt b := by
  rw [busValue, history_busRead]
  rfl

/-! ### `Reset()` field by field, and the step after it -/

/-- The bus accesses of `Reset()` are the two reads of the RESET vector (R275). The registers it has cleared before them do
not matter to the bus. -/
theorem hostReset_events (s : State) :
    (hostReset s).events = busReads [resetVector, resetVector + 1] (beginEvents s) := rfl

/-- `Reset()` loads PC with the word at the RESET vector (R275). -/
theorem hostReset_pc (s : State) : (hostReset s).pc = (read16 resetVector (beginEvents s)).1 := rfl

@[simp] theorem hostReset_mem (s : State) : (hostReset s).mem = s.mem := rfl
@[simp] theorem hostReset_halted (s : State) : (hostReset s).halted = false := rfl

/-- Both latches are clear after `Reset()`, so no interrupt is taken (R231, R274). -/
@[simp] theorem takesInterrupt_hostReset (s : State) : takesInterrupt (hostReset s) = false := rfl

/-- A step of a block that is not halted and takes no interrupt runs one instruction (R100). -/
theorem step_eq_runInstruction {s : State} (hrun : s.halted = false) (hint : takesInterrupt s = false) :
    step s = runInstruction (beginEvents s) := by
  simp [step, hrun, hint]

end Sys2Proof.Machine

namespace Sys2Proof.Proofs

open Sys2Proof Sys2Proof.Machine

/-- Settles O2: the low byte is what the bus answers before `Reset()`, the high byte what it answers after the low byte's
read, and the state left is running with nothing pending. -/
theorem resetLoadsPcFromVector : Obligations.ResetLoadsPcFromVector := by
  intro s
  refine ⟨busValue resetVector s, busValue (resetVector + 1) (busRead resetVector (beginEvents s)).2,
    ?events, ?pc, rfl, ?high, hostReset_mem s,
    step_eq_runInstruction (hostReset_halted s) (takesInterrupt_hostReset s)⟩
  case events =>
    rw [hostReset_events, busReads_cons, busReads_cons, busReads_nil, busValue_beginEvents]
    rfl
  case pc =>
    rw [hostReset_pc, ← busValue_beginEvents]
    rfl
  case high =>
    rw [busValue_busRead, busValue_beginEvents, history_beginEvents]
    rfl

end Sys2Proof.Proofs
end

section
/-! PROOFS. The decoder (30_encoding.md): what one call of `decode` does, the table checked entry by entry, and the
statements O6 to O9. -/

namespace Sys2Proof

/-! ### What an entry of the table reads -/

/-- What an entry makes of the operand bytes that follow its opcode (R60, R61). -/
inductive Entry.Reads : Entry → List Byte → Instr → Prop
  | f1 (i : Instr) : Reads (.f1 i) [] i
  | f2 (build : Byte → Instr) (b : Byte) : Reads (.f2 build) [b] (build b)
  | f3 (build : Word → Instr) (w : Word) : Reads (.f3 build) [loByte w, hiByte w] (build w)

/-- A word's bytes in memory order, the way the decoder finds them. -/
theorem Entry.Reads.f3_wordOf (build : Word → Instr) (lo hi : Byte) :
    Entry.Reads (.f3 build) [lo, hi] (build (wordOf lo hi)) := by
  simpa using Entry.Reads.f3 build (wordOf lo hi)

/-- Two bytes are enough for every entry. -/
theorem Entry.exists_reads (e : Entry) (b1 b2 : Byte) :
    ∃ (bs rest : List Byte) (i : Instr), [b1, b2] = bs ++ rest ∧ e.Reads bs i := by
  cases e with
  | f1 i => exact ⟨[], [b1, b2], i, rfl, .f1 i⟩
  | f2 build => exact ⟨[b1], [b2], build b1, rfl, .f2 build b1⟩
  | f3 build => exact ⟨[b1, b2], [], build (wordOf b1 b2), rfl, .f3_wordOf build b1 b2⟩

/-- What a successful decoding is: the first byte's entry has read the bytes right after it (R61, R62). -/
theorem decode_eq_ok_iff {bytes rest : List Byte} {i : Instr} :
    decode bytes = .ok (i, rest) ↔ ∃ op bs, bytes = op :: bs ++ rest ∧ (lookup op).Reads bs i := by
  constructor
  · intro h
    unfold decode at h
    split at h
    · cases h
    next op tail =>
      split at h
      next j _ he => cases h; exact ⟨op, [], rfl, he ▸ .f1 _⟩
      next build b tail he => cases h; exact ⟨op, [b], rfl, he ▸ .f2 build b⟩
      next build lo hi tail he => cases h; exact ⟨op, [lo, hi], rfl, he ▸ .f3_wordOf build lo hi⟩
      all_goals cases h
  · rintro ⟨op, bs, rfl, h⟩
    generalize he : lookup op = e at h
    cases h <;> simp [decode, he]

/-! ### The table against the encoder -/

/-- An instruction is well formed and its bytes are an opcode and the operand bytes given. -/
def Instr.HasBytes (i : Instr) (op : Byte) (bs : List Byte) : Prop := WellFormed i = true ∧ encode i = op :: bs

/-- What the table reads for an opcode is well formed and encodes to the bytes read: the 256 entries of R63 and R64, each
held against the encoder. -/
theorem hasBytes_of_reads {op : Byte} {bs : List Byte} {i : Instr} (h : (lookup op).Reads bs i) : i.HasBytes op bs := by
  refine byte_forall (P := fun v => ∀ bs i, (lookup v).Reads bs i → i.HasBytes v bs) (fun n => ?_) op bs i h
  fin_cases n <;> (rintro _ _ ⟨⟩; exact ⟨rfl, rfl⟩)

/-- The table reads every well-formed instruction back from its opcode and operand bytes (R63). -/
theorem reads_of_wellFormed {i : Instr} (h : WellFormed i = true) : (lookup (opcode i)).Reads i.form.bytes i := by
  cases i
  case invalid op => exact lookup_invalid h ▸ .f1 _
  all_goals constructor

/-- The operand bytes of a mode are LEN in number (R60, R80 to R92). -/
theorem length_formBytes (f : Form) : f.bytes.length = Machine.formLen f := by
  cases f with
  | mem m => cases m <;> rfl
  | _ => rfl

/-- `i` carries the opcode and the operand bytes it was read from. -/
theorem Instr.HasBytes.opcode_eq {i : Instr} {op : Byte} {bs : List Byte} (h : i.HasBytes op bs) : opcode i = op :=
  (List.cons.inj h.2).1

/-- An instruction has as many operand bytes as LEN says. -/
theorem Instr.HasBytes.length_eq {i : Instr} {op : Byte} {bs : List Byte} (h : i.HasBytes op bs) :
    bs.length = Machine.formLen i.form := by
  rw [← (List.cons.inj h.2).2, length_formBytes]

/-! ### The Invalid bytes -/

/-- The bytes of R64's list are read as the Invalid instruction that carries them. -/
theorem eq_invalid_of_reads {op : Byte} {bs : List Byte} {i : Instr} (hop : invalidOpcodes.contains op = true)
    (h : (lookup op).Reads bs i) : i = .invalid op := by
  rw [lookup_invalid hop] at h
  cases h
  rfl

/-- An instruction of kind Invalid is the constructor that carries its byte. -/
theorem eq_invalid_of_kind {i : Instr} (h : i.kind = .invalid) : i = .invalid (opcode i) := by
  cases i <;> cases h
  rfl

/-- A well-formed instruction whose opcode is not on R64's list is documented. -/
theorem kind_ne_invalid {i : Instr} (hwf : WellFormed i = true) (hop : invalidOpcodes.contains (opcode i) = false) :
    i.kind ≠ .invalid := by
  intro hk
  rw [eq_invalid_of_kind hk, WellFormed, hop] at hwf
  cases hwf

end Sys2Proof

namespace Sys2Proof.Proofs

open Sys2Proof Sys2Proof.Machine

/-- Settles O6: the table reads the operand bytes of the instruction back from its opcode. -/
theorem decodeAfterEncode : Obligations.DecodeAfterEncode := fun i _ hwf =>
  decode_eq_ok_iff.mpr ⟨opcode i, i.form.bytes, rfl, reads_of_wellFormed hwf⟩

/-- Settles O7: the bytes an entry has read are those its instruction encodes to. -/
theorem encodeAfterDecode : Obligations.EncodeAfterDecode := by
  intro bytes i rest h
  obtain ⟨op, bs, rfl, hreads⟩ := decode_eq_ok_iff.mp h
  obtain ⟨hwf, hencode⟩ := hasBytes_of_reads hreads
  exact ⟨hwf, by rw [hencode]⟩

/-- Settles O8: two operand bytes are enough for any entry, and whether the byte is on R64's list says which kind of entry
it has. -/
theorem everyOpcodeByteHasAnEntry : Obligations.EveryOpcodeByteHasAnEntry := by
  intro op b1 b2
  obtain ⟨bs, rest, i, hbytes, hreads⟩ := (lookup op).exists_reads b1 b2
  have hi := hasBytes_of_reads hreads
  have hlen := congrArg List.length hbytes
  rw [List.length_append, hi.length_eq] at hlen
  have hdecode := decode_eq_ok_iff.mpr ⟨op, bs, congrArg (op :: ·) hbytes, hreads⟩
  refine ⟨i, rest, hdecode, ?length, ?invalid, ?documented⟩
  case length => exact (Nat.sub_eq_of_eq_add' hlen).symm
  case invalid =>
    intro hop
    obtain rfl := eq_invalid_of_reads hop hreads
    exact ⟨rfl, rfl⟩
  case documented =>
    intro hop
    exact kind_ne_invalid hi.1 (hi.opcode_eq ▸ hop)

/-- Settles O9, by running the decoder on the eight words. -/
theorem sampleWordsDecode : Obligations.SampleWordsDecode :=
  ⟨rfl, rfl, rfl, rfl, rfl, rfl, rfl, rfl⟩

end Sys2Proof.Proofs
end

section
/-! PROOFS. The bus, the stack page and the packed status (20_memory.md, 10_state.md section 2): the statements O22 to
O24. -/

namespace Sys2Proof.Machine

/-! ### The stack pointer modulo 256 -/

/-- A push takes the stack pointer one down, which is 255 up modulo 256 (R49). -/
theorem byte_sub_one_toNat (v : Byte) : (v - 1).toNat = (v.toNat + 255) % 256 := by
  rw [byte_sub_one_eq, BitVec.toNat_ofNat, Nat.mod_mod]

/-- A pull takes it one up modulo 256 (R50). -/
theorem byte_add_one_toNat (v : Byte) : (v + 1).toNat = (v.toNat + 1) % 256 := by
  rw [byte_add_one_eq, BitVec.toNat_ofNat, Nat.mod_mod]

/-- `Pull` gives the byte of a plain slot. -/
theorem pull_fst_ram {s : State} (h : intercepted (stackAddr (s.sp + 1)) s = false) :
    (pull s).1 = s.byteAt (stackAddr (s.sp + 1)) := by
  rw [pull_ram h]

/-- The slot that a push wrote reads back the byte pushed when it is plain memory. -/
theorem byteAt_push_same {v : Byte} {s : State} (hwf : s.mem.wf = true) (h : intercepted (stackAddr s.sp) s = false) :
    (push v s).byteAt (stackAddr s.sp) = v := byteAt_busWrite_same hwf h

/-- A push leaves every byte outside its slot alone. -/
theorem byteAt_push_other {v : Byte} {s : State} {a : Word} (h : a ≠ stackAddr s.sp) :
    (push v s).byteAt a = s.byteAt a := byteAt_busWrite_other h

/-! ### The packed status -/

/-- The packed status is the sum of the weights of its bits (R24). -/
theorem packP_toNat (b : Bool) (p : Flags) :
    (packP b p).toNat = 128 * p.n.toNat + 64 * p.v.toNat + 32 + 16 * b.toNat + 8 * p.d.toNat + 4 * p.i.toNat
      + 2 * p.z.toNat + p.c.toNat := by
  obtain ⟨c, z, i, d, v, n⟩ := p
  cases n <;> cases v <;> cases b <;> cases d <;> cases i <;> cases z <;> cases c <;> rfl

/-- A flag placed at a bit of a byte is that bit and no other. -/
theorem getElem_flagAt (f : Bool) (k : Nat) {j : Nat} (hj : j < 8) : (flagAt f k)[j] = (f && decide (j = k)) := by
  cases f with
  | false => simp [flagAt]
  | true =>
    rw [flagAt, if_pos rfl, Nat.one_shiftLeft, BitVec.natCast_eq_ofNat, BitVec.getElem_eq_testBit_toNat,
      BitVec.toNat_ofNat, Nat.testBit_mod_two_pow, Nat.testBit_two_pow, decide_eq_true hj, Bool.true_and, Bool.true_and]
    exact decide_eq_decide.mpr eq_comm

/-- Bits 5 and 4 are the ones a pulled byte loses (R25). -/
theorem packP_unpackP (b : Bool) (v : Byte) :
    packP b (unpackP v) = (v &&& 0xCF) ||| (if b then 0x30 else 0x20) := by
  apply BitVec.eq_of_getLsbD_eq
  intro k hk
  cases b <;> interval_cases k <;> simp [packP, unpackP, getElem_flagAt]

end Sys2Proof.Machine

namespace Sys2Proof.Proofs

open Sys2Proof Sys2Proof.Machine

/-- Settles O22: a write outside `IO_MAP` sets its cell and no other, and every access adds its one event. -/
theorem busReadsLastWrite : Obligations.BusReadsLastWrite := by
  intro a v s
  refine ⟨fun hram hwf => ?lastWrite, fun c hc => byteAt_busWrite_other hc, busWrite_mem_intercepted, fun hio => ?host,
    busWrite_eq a v s, rfl⟩
  case lastWrite =>
    have hram' : intercepted a (busWrite a v s) = false := (intercepted_congr (busWrite_cfg a v s)).trans hram
    rw [busRead_fst, busValue_ram hram', byteAt_busWrite_same hwf hram]
  case host => rw [busRead_fst, busValue, if_pos hio, history]

/-- Settles O23: the pull after a push reads the slot the push wrote, since the stack pointer is one up again. -/
theorem pullGivesBackPush : Obligations.PullGivesBackPush := by
  intro v s
  refine ⟨stackAddr_page s.sp, byte_sub_one_toNat s.sp, byte_add_one_toNat s.sp, rfl, fun hram hwf => ?_⟩
  have hsp : (push v s).sp + 1 = s.sp := BitVec.sub_add_cancel s.sp 1
  have hslot : intercepted (stackAddr ((push v s).sp + 1)) (push v s) = false := by
    rwa [hsp, intercepted_congr (push_cfg v s)]
  exact ⟨by rw [pull_fst_ram hslot, hsp, byteAt_push_same hwf hram], hsp⟩

/-- Settles O24, by the lemmas about the two directions of the packed byte. -/
theorem statusByteLayout : Obligations.StatusByteLayout := fun b p v =>
  ⟨packP_toNat b p, unpackP_packP b p, packP_unpackP b v⟩

end Sys2Proof.Proofs
end

section
/-! PROOFS. The address resolver and the operand access (40_address_resolver.md, 41_engine_step.md section 2): the effective
addresses in numbers, the pointer reads, and the statements O25 to O29. -/

namespace Sys2Proof.Machine

/-! ### Effective addresses, in numbers -/

/-- A zero-page address is its byte (R84). -/
theorem zext16_toNat (v : Byte) : (zext16 v).toNat = v.toNat :=
  BitVec.toNat_setWidth_of_le (by decide)

/-- A zero-page address is the word of its number. -/
theorem zext16_eq_ofNat (v : Byte) : zext16 v = BitVec.ofNat 16 v.toNat := by
  rw [← zext16_toNat, BitVec.ofNat_toNat, BitVec.setWidth_eq]

/-- An indexed zero-page address wraps within page 0 (R85, R86). -/
theorem zext16_add_toNat (b v : Byte) : (zext16 (b + v)).toNat = (b.toNat + v.toNat) % 256 := by
  rw [zext16_toNat, BitVec.toNat_add]

/-- An indexed absolute address wraps modulo 65536 (R89). -/
theorem add_zext16_toNat (w : Word) (v : Byte) : (w + zext16 v).toNat = (w.toNat + v.toNat) % 65536 := by
  rw [BitVec.toNat_add, zext16_toNat]

/-- A branch target modulo 65536 (R87). -/
theorem effectiveAddress_rel_toNat (off : Byte) (s : State) :
    ((effectiveAddress (.rel off) s).toNat : Int) = ((s.pc.toNat : Int) + 2 + off.toInt) % 65536 := by
  rw [effectiveAddress_rel_eq_ofInt, BitVec.toNat_ofInt, Int.toNat_of_nonneg (Int.emod_nonneg _ (by decide))]
  rfl

/-! ### The pointer reads -/

/-- The two bytes a pair of reads answers, in numbers (R45). -/
theorem readPair_fst (a b : Word) (s : State) :
    (readPair a b s).1 = wordOf (busValue a s) (busValue b (busRead a s).2) := rfl

/-- The second byte of a zero-page pointer stands one further within page 0 (R47, D2). -/
theorem zext16_succ_eq_ofNat (v : Byte) : zext16 (v + 1) = BitVec.ofNat 16 ((v.toNat + 1) % 256) := by
  rw [zext16_eq_ofNat, byte_add_one_toNat]

/-- The pointer a zero-page read gives, in numbers (R47). -/
theorem read16ZP_fst_toNat (v : Byte) (s : State) :
    (read16ZP v s).1.toNat = (busValue (zext16 v) s).toNat
      + 256 * (busValue (zext16 (v + 1)) (busRead (zext16 v) s).2).toNat := by
  rw [read16ZP, readPair_fst, wordOf_toNat]

/-- The low byte of a word is its number modulo 256. -/
theorem loByte_toNat (w : Word) : (loByte w).toNat = w.toNat % 256 := by
  rw [loByte, BitVec.extractLsb'_toNat, Nat.shiftRight_zero]

/-- A pointer at the end of a page wraps to that page's start (R90). -/
theorem and_ff00_eq_ofNat {w : Word} (h : w.toNat % 256 = 255) : w &&& 0xFF00 = BitVec.ofNat 16 (w.toNat - 255) := by
  have hw := w.isLt
  apply BitVec.eq_of_toNat_eq
  calc (w &&& 0xFF00).toNat
      = ((w >>> 8) <<< 8).toNat := by rw [BitVec.shiftLeft_ushiftRight]; rfl
    _ = w.toNat / 256 * 256 := by
      rw [BitVec.toNat_shiftLeft, BitVec.toNat_ushiftRight, Nat.shiftLeft_eq, Nat.shiftRight_eq_div_pow]
      omega
    _ = (BitVec.ofNat 16 (w.toNat - 255)).toNat := by
      rw [BitVec.toNat_ofNat]
      omega

/-- Where the high byte of a JMP pointer is read, in numbers (R90). -/
theorem indirectHighAt_eq (w : Word) (s : State) :
    indirectHighAt w s =
      if s.cfg.jmpIndWrapBug = true ∧ w.toNat % 256 = 255 then BitVec.ofNat 16 (w.toNat - 255) else w + 1 := by
  have hlow : loByte w = 0xFF ↔ w.toNat % 256 = 255 := by
    rw [← BitVec.toNat_inj, loByte_toNat]
    rfl
  by_cases h : s.cfg.jmpIndWrapBug = true ∧ w.toNat % 256 = 255
  · rw [if_pos h, ← and_ff00_eq_ofNat h.2, indirectHighAt, hlow.mpr h.2, h.1]
    rfl
  · rw [if_neg h, indirectHighAt, if_neg]
    rwa [Bool.and_eq_true, beq_iff_eq, hlow]

end Sys2Proof.Machine

namespace Sys2Proof.Proofs

open Sys2Proof Sys2Proof.Machine

/-- Settles O25, mode by mode. -/
theorem directEffectiveAddresses : Obligations.DirectEffectiveAddresses := fun b w s =>
  ⟨zext16_toNat b, rfl, zext16_add_toNat b s.x, rfl, zext16_add_toNat b s.y, rfl, effectiveAddress_rel_toNat b s, rfl,
    rfl, rfl, add_zext16_toNat w s.x, rfl, add_zext16_toNat w s.y, rfl⟩

/-- Settles O26: both modes read one zero-page pointer, at the operand plus X and at the operand. -/
theorem indirectEffectiveAddresses : Obligations.IndirectEffectiveAddresses := by
  intro b p s
  refine ⟨?indX, ?indY⟩
  case indX =>
    intro hp
    obtain rfl : p = (b + s.x).toNat := hp.trans (BitVec.toNat_add b s.x).symm
    rw [← zext16_succ_eq_ofNat, ← zext16_eq_ofNat]
    exact ⟨read16ZP_fst_toNat (b + s.x) s, rfl⟩
  case indY =>
    rintro rfl
    rw [← zext16_succ_eq_ofNat, ← zext16_eq_ofNat]
    refine ⟨?_, rfl⟩
    rw [show effectiveAddress (.indY b) s = (read16ZP b s).1 + zext16 s.y from rfl, add_zext16_toNat,
      read16ZP_fst_toNat]
    rfl

/-- Settles O27: the defect decides where the second byte is read. -/
theorem indirectJumpPageWrap : Obligations.IndirectJumpPageWrap := by
  intro w s
  refine ⟨?_, rfl⟩
  rw [show effectiveAddress (.ind w) s = (readPair w (indirectHighAt w s) s).1 from rfl, readPair_fst, indirectHighAt_eq]
  rfl

/-- Settles O28: the three pointer modes make the two reads of a pair, and the others none. -/
theorem resolverReadsOnlyPointers : Obligations.ResolverReadsOnlyPointers := by
  intro m s
  cases m with
  | ind w => exact readPair_snd_eq w (indirectHighAt w s) s
  | indX b => exact readPair_snd_eq (zext16 (b + s.x)) (zext16 (b + s.x + 1)) s
  | indY b => exact readPair_snd_eq (zext16 b) (zext16 (b + 1)) s
  | _ => simp [resolve]

/-- Settles O29: the immediate byte is already there, and a memory operand is one read at EA. -/
theorem readOperandIsOneRead : Obligations.ReadOperandIsOneRead := by
  intro v m s
  refine ⟨rfl, readSource_mem_fst m s, ?_⟩
  rw [← readSource_mem_events]
  exact readSource_snd (.mem m) s

end Sys2Proof.Proofs
end

section
/-! PROOFS. The dispatch (41_engine_step.md section 4): every instruction is one of the shared operations, and what each of
them leaves alone. -/

namespace Sys2Proof.Machine

/-! ### The families of the dispatch -/

/-- What the one-byte instructions that touch neither memory nor the stack do before PC advances (R142 to R145, R194 to
R199, R212 to R219). -/
def internalMeaning : Kind → Option (State → State)
  | .inx => some fun s => { s with x := s.x + 1, p := setZN (s.x + 1) s.p }
  | .iny => some fun s => { s with y := s.y + 1, p := setZN (s.y + 1) s.p }
  | .dex => some fun s => { s with x := s.x - 1, p := setZN (s.x - 1) s.p }
  | .dey => some fun s => { s with y := s.y - 1, p := setZN (s.y - 1) s.p }
  | .tax => some fun s => { s with x := s.a, p := setZN s.a s.p }
  | .tay => some fun s => { s with y := s.a, p := setZN s.a s.p }
  | .txa => some fun s => { s with a := s.x, p := setZN s.x s.p }
  | .tya => some fun s => { s with a := s.y, p := setZN s.y s.p }
  | .tsx => some fun s => { s with x := s.sp, p := setZN s.sp s.p }
  | .txs => some fun s => { s with sp := s.x }
  | .clc => some fun s => { s with p := { s.p with c := false } }
  | .sec => some fun s => { s with p := { s.p with c := true } }
  | .cli => some fun s => { s with p := { s.p with i := false } }
  | .sei => some fun s => { s with p := { s.p with i := true } }
  | .clv => some fun s => { s with p := { s.p with v := false } }
  | .cld => some fun s => { s with p := { s.p with d := false } }
  | .sed => some fun s => { s with p := { s.p with d := true } }
  | .nop => some fun s => s
  | _ => none

/-- The byte that PHA and PHP push (R190, R191). -/
def pushedByte : Kind → Option (State → Byte)
  | .pha => some State.a
  | .php => some fun s => packP true s.p
  | _ => none

/-- What PLA, PLP, RTS and RTI do: they pull bytes, and write registers, flags and PC (R181, R192, R193, R211). -/
def pullMeaning : Kind → Option (State → State)
  | .pla => some pullA
  | .plp => some pullStatus
  | .rts => some returnFromSubroutine
  | .rti => some returnFromInterrupt
  | _ => none

/-- `Runs k f g`: an instruction of kind `k` and mode `f` takes a state `s` to `g s`, by one of the shared operations. -/
inductive Runs : Kind → Form → (State → State) → Prop
  | reads {k : Kind} {f : Source → State → State} (hk : readingMeaning k = some f) (src : Source) :
    Runs k src.form (f src)
  | bit (m : MemMode) : Runs .bit (.mem m) (bitTest m)
  | shifts {k : Kind} {f : Byte → Bool → Byte × Bool} (hk : shiftMeaning k = some f) (t : Target) :
    Runs k t.form (shift f t)
  | steps {k : Kind} {f : Byte → Byte} (hk : cellMeaning k = some f) (m : MemMode) : Runs k (.mem m) (stepCell f m)
  | stores {k : Kind} {reg : State → Byte} (hk : storedRegister k = some reg) (m : MemMode) :
    Runs k (.mem m) fun s => store (reg s) m s
  | branches {k : Kind} {cond : State → Bool} (hk : ∀ s, branchCondition k s.p = some (cond s)) (off : Byte) :
    Runs k (.mem (.rel off)) fun s => branch (cond s) off s
  | jmp (m : MemMode) : Runs .jmp (.mem m) (jump m)
  | jsr (w : Word) : Runs .jsr (.mem (.abs w)) (jumpSubroutine w)
  | internal {k : Kind} {f : State → State} (hk : internalMeaning k = some f) :
    Runs k .implied fun s => advance 0 (f s)
  | pushes {k : Kind} {v : State → Byte} (hk : pushedByte k = some v) :
    Runs k .implied fun s => advance 0 (push (v s) s)
  | pulls {k : Kind} {f : State → State} (hk : pullMeaning k = some f) : Runs k .implied f
  | brk : Runs .brk .implied fun s => enterInterrupt (s.pc + 2) true irqVector s
  | invalid (op : Byte) : Runs .invalid .implied (illegalOpcode op)

/-- `exec` runs every instruction as its kind and mode say, and never stops (R111). -/
theorem exec_runs (i : Instr) : ∃ g, Runs i.kind i.form g ∧ ∀ s, exec i s = .next (g s) := by
  cases i
  case adcImm | sbcImm | cmpImm | cpxImm | cpyImm | andImm | oraImm | eorImm | ldaImm | ldxImm | ldyImm =>
    exact ⟨_, .reads rfl (.imm _), fun _ => rfl⟩
  case adcZp | adcZpX | adcAbs | adcAbsX | adcAbsY | adcIndX | adcIndY | sbcZp | sbcZpX | sbcAbs | sbcAbsX | sbcAbsY
      | sbcIndX | sbcIndY | cmpZp | cmpZpX | cmpAbs | cmpAbsX | cmpAbsY | cmpIndX | cmpIndY | cpxZp | cpxAbs | cpyZp
      | cpyAbs | andZp | andZpX | andAbs | andAbsX | andAbsY | andIndX | andIndY | oraZp | oraZpX | oraAbs | oraAbsX
      | oraAbsY | oraIndX | oraIndY | eorZp | eorZpX | eorAbs | eorAbsX | eorAbsY | eorIndX | eorIndY | ldaZp | ldaZpX
      | ldaAbs | ldaAbsX | ldaAbsY | ldaIndX | ldaIndY | ldxZp | ldxZpY | ldxAbs | ldxAbsY | ldyZp | ldyZpX | ldyAbs
      | ldyAbsX =>
    exact ⟨_, .reads rfl (.mem _), fun _ => rfl⟩
  case bitZp | bitAbs => exact ⟨_, .bit _, fun _ => rfl⟩
  case aslA | lsrA | rolA | rorA => exact ⟨_, .shifts rfl .acc, fun _ => rfl⟩
  case aslZp | aslZpX | aslAbs | aslAbsX | lsrZp | lsrZpX | lsrAbs | lsrAbsX | rolZp | rolZpX | rolAbs | rolAbsX | rorZp
      | rorZpX | rorAbs | rorAbsX =>
    exact ⟨_, .shifts rfl (.mem _), fun _ => rfl⟩
  case incZp | incZpX | incAbs | incAbsX | decZp | decZpX | decAbs | decAbsX => exact ⟨_, .steps rfl _, fun _ => rfl⟩
  case staZp | staZpX | staAbs | staAbsX | staAbsY | staIndX | staIndY | stxZp | stxZpY | stxAbs | styZp | styZpX
      | styAbs =>
    exact ⟨_, .stores rfl _, fun _ => rfl⟩
  case bcc | bcs | beq | bne | bmi | bpl | bvc | bvs => exact ⟨_, .branches (fun _ => rfl) _, fun _ => rfl⟩
  case jmpAbs | jmpInd => exact ⟨_, .jmp _, fun _ => rfl⟩
  case jsr => exact ⟨_, .jsr _, fun _ => rfl⟩
  case inx | iny | dex | dey | tax | tay | txa | tya | tsx | txs | clc | sec | cli | sei | clv | cld | sed | nop =>
    exact ⟨_, .internal rfl, fun _ => rfl⟩
  case pha | php => exact ⟨_, .pushes rfl, fun _ => rfl⟩
  case pla | plp | rts | rti => exact ⟨_, .pulls rfl, fun _ => rfl⟩
  case brk => exact ⟨_, .brk, fun _ => rfl⟩
  case invalid op => exact ⟨_, .invalid op, fun _ => rfl⟩

/-- What an instruction that answered a next state ran. -/
theorem runs_of_exec {i : Instr} {s t : State} (h : exec i s = .next t) :
    ∃ g, Runs i.kind i.form g ∧ (∀ s, exec i s = .next (g s)) ∧ t = g s := by
  obtain ⟨g, hg, hexec⟩ := exec_runs i
  rw [hexec] at h
  cases h
  exact ⟨g, hg, hexec, rfl⟩

/-- No instruction ends in a fault or a refusal. -/
theorem exec_eq_next (i : Instr) (s : State) : ∃ t, exec i s = .next t := by
  obtain ⟨g, -, hexec⟩ := exec_runs i
  exact ⟨g s, hexec s⟩

/-! ### What every family leaves alone -/

/-- An Invalid opcode under Halt (R240). -/
theorem illegalOpcode_halt {s : State} (op : Byte) (h : s.cfg.illegalPolicy = .halt) :
    illegalOpcode op s = { s with halted := true, haltOpcode := op, result := some (.illegalOpcode s.pc op) } := by
  rw [illegalOpcode, h]

/-- An Invalid opcode under Skip (R240). -/
theorem illegalOpcode_skip {s : State} (op : Byte) (h : s.cfg.illegalPolicy = .skip) :
    illegalOpcode op s = { s with pc := s.pc + 1, result := some (.ok 2) } := by
  rw [illegalOpcode, h, advance_zero_eq]

/-- An Invalid opcode writes PC, the halt marks and the result alone (R239, R240). -/
theorem illegalOpcode_eq (op : Byte) (s : State) :
    illegalOpcode op s = { s with
      pc := (illegalOpcode op s).pc
      halted := (illegalOpcode op s).halted
      haltOpcode := (illegalOpcode op s).haltOpcode
      result := (illegalOpcode op s).result } := by
  cases h : s.cfg.illegalPolicy with
  | halt => rw [illegalOpcode_halt op h]
  | skip => rw [illegalOpcode_skip op h]

/-- An instruction that only reads writes A, X, Y, flags, PC and events alone. -/
theorem readingMeaning_frame {k : Kind} {f : Source → State → State} (hk : readingMeaning k = some f) (src : Source)
    (s : State) :
    f src s = { s with
      a := (f src s).a
      x := (f src s).x
      y := (f src s).y
      p := (f src s).p
      pc := (f src s).pc
      events := (readSource src s).2.events } := by
  cases k <;> cases hk <;>
    simp only [adc_eq, sbc_eq, compareWith_eq, logic_eq, loadA_eq, loadX_eq, loadY_eq]

/-- An instruction is an Invalid opcode, or it leaves the latches, the halt marks, the past, the result and the parameters
alone (R28, R29, R109). -/
theorem Runs.frame {k : Kind} {fm : Form} {g : State → State} (h : Runs k fm g) (s : State) :
    (k = .invalid ∧ ∃ op, g = illegalOpcode op)
      ∨ g s = { s with
          a := (g s).a, x := (g s).x, y := (g s).y, sp := (g s).sp, pc := (g s).pc, p := (g s).p, mem := (g s).mem
          events := (g s).events } := by
  cases h with
  | reads hk src => exact .inr (by rw [readingMeaning_frame hk src s])
  | bit m => exact .inr (by rw [bitTest_eq])
  | shifts hk t =>
    cases t with
    | acc => exact .inr rfl
    | mem m => exact .inr (by rw [shift_mem_eq])
  | steps hk m => exact .inr (by rw [stepCell_eq])
  | stores hk m => exact .inr (by simp only [store_eq])
  | branches hk off => exact .inr (by simp only [branch_eq])
  | jmp m => exact .inr (by rw [jump_eq])
  | jsr w => exact .inr rfl
  | internal hk => exact .inr (by cases k <;> cases hk <;> rfl)
  | pushes hk => exact .inr rfl
  | pulls hk => exact .inr (by cases k <;> cases hk <;> rfl)
  | brk => exact .inr (by beta_reduce; rw [enterInterrupt_eq])
  | invalid op => exact .inl ⟨rfl, op, rfl⟩

/-! ### Events are only added -/

/-- The resolver only adds events. -/
theorem resolve_events_append (m : MemMode) (s : State) : ∃ evs, (resolve m s).2.events = s.events ++ evs :=
  ⟨_, congrArg State.events (Proofs.resolverReadsOnlyPointers m s)⟩

/-- Reading an operand only adds events. -/
theorem readSource_events_append (src : Source) (s : State) : ∃ evs, (readSource src s).2.events = s.events ++ evs := by
  cases src with
  | imm v => exact ⟨[], (List.append_nil _).symm⟩
  | mem m =>
    obtain ⟨evs, h⟩ := resolve_events_append m s
    exact ⟨_, by rw [readSource_mem_events, h, List.append_assoc]⟩

/-- So do the pulls: two and three of them add two and three events. -/
theorem pullMeaning_events_append {k : Kind} {f : State → State} (hk : pullMeaning k = some f) (s : State) :
    ∃ evs, (f s).events = s.events ++ evs := by
  cases k <;> cases hk
  case pla | plp => exact ⟨_, rfl⟩
  case rts => exact ⟨_, List.append_assoc _ _ _⟩
  case rti => exact ⟨_, (List.append_assoc _ _ _).trans (List.append_assoc _ _ _)⟩

/-- Every instruction only adds events (R43). -/
theorem Runs.events_append {k : Kind} {fm : Form} {g : State → State} (h : Runs k fm g) (s : State) :
    ∃ evs, (g s).events = s.events ++ evs := by
  cases h with
  | reads hk src => rw [readingMeaning_frame hk src s]; exact readSource_events_append src s
  | bit m => rw [bitTest_eq]; exact readSource_events_append (.mem m) s
  | shifts hk t =>
    cases t with
    | acc => exact ⟨[], (List.append_nil _).symm⟩
    | mem m =>
      obtain ⟨evs, h⟩ := readSource_events_append (.mem m) s
      exact ⟨_, by rw [shift_mem_eq, h, List.append_assoc]⟩
  | steps hk m =>
    obtain ⟨evs, h⟩ := readSource_events_append (.mem m) s
    exact ⟨_, by rw [stepCell_eq, h, List.append_assoc]⟩
  | stores hk m =>
    obtain ⟨evs, h⟩ := resolve_events_append m s
    exact ⟨_, by simp only [store_eq, h, List.append_assoc]; rfl⟩
  | branches hk off => exact ⟨[], by simp only [branch_eq, List.append_nil]⟩
  | jmp m => rw [jump_eq]; exact resolve_events_append m s
  | jsr w => exact ⟨_, List.append_assoc _ _ _⟩
  | internal hk => exact ⟨[], by cases k <;> cases hk <;> exact (List.append_nil _).symm⟩
  | pushes hk => exact ⟨_, rfl⟩
  | pulls hk => exact pullMeaning_events_append hk s
  | brk => exact ⟨_, by rw [enterInterrupt_events, enterInterrupt_pushes]; simp only [List.append_assoc]; rfl⟩
  | invalid op => exact ⟨[], by rw [illegalOpcode_eq, List.append_nil]⟩

/-! ### Where memory changes -/

/-- Equal images hold equal bytes. -/
theorem byteAt_congr {s t : State} (h : t.mem = s.mem) (a : Word) : t.byteAt a = s.byteAt a := by
  rw [State.byteAt, State.byteAt, h]

/-- The kinds that store to their effective address. -/
def storingKinds : List Kind := [.sta, .stx, .sty, .inc, .dec, .asl, .lsr, .rol, .ror]

/-- How an instruction may leave the image: as it was, with one cell written at the effective address of a storing kind,
or with one, two or three bytes pushed (R40, R49, R53). -/
inductive LeavesImage (k : Kind) (fm : Form) (s t : State) : Prop
  | same (h : t.mem = s.mem)
  | cell (m : MemMode) (v : Byte) (hk : k ∈ storingKinds) (hfm : fm = .mem m)
      (h : t.mem = (busWrite (effectiveAddress m s) v s).mem)
  | pushed (v : Byte) (hk : k ∈ [Kind.pha, .php]) (h : t.mem = (push v s).mem)
  | called (ret : Word) (hk : k = .jsr) (h : t.mem = (push16 ret s).mem)
  | entered (ret : Word) (v : Byte) (hk : k = .brk) (h : t.mem = (push v (push16 ret s)).mem)

/-- What every instruction does to the image. -/
theorem Runs.leavesImage {k : Kind} {fm : Form} {g : State → State} (h : Runs k fm g) (s : State) :
    LeavesImage k fm s (g s) := by
  cases h with
  | reads hk src => exact .same (by rw [readingMeaning_frame hk src s])
  | bit m => exact .same (by rw [bitTest_eq])
  | shifts hk t =>
    cases t with
    | acc => exact .same rfl
    | mem m => exact .cell m _ (by cases k <;> cases hk <;> decide) rfl (by rw [shift_mem_eq])
  | steps hk m => exact .cell m _ (by cases k <;> cases hk <;> decide) rfl (by rw [stepCell_eq])
  | @stores _ reg hk m => exact .cell m (reg s) (by cases k <;> cases hk <;> decide) rfl (by simp only [store_eq])
  | branches hk off => exact .same (by simp only [branch_eq])
  | jmp m => exact .same (by rw [jump_eq])
  | jsr w => exact .called (s.pc + 2) rfl (by rw [jumpSubroutine_eq])
  | internal hk => exact .same (by cases k <;> cases hk <;> rfl)
  | @pushes _ v hk => exact .pushed (v s) (by cases k <;> cases hk <;> decide) rfl
  | pulls hk => exact .same (by cases k <;> cases hk <;> rfl)
  | brk => exact .entered (s.pc + 2) (packP true s.p) rfl (enterInterrupt_mem _ _ _ _)
  | invalid op => exact .same (by rw [illegalOpcode_eq])

/-- No instruction breaks the canonical form of the image. -/
theorem LeavesImage.wf {k : Kind} {fm : Form} {s t : State} (h : LeavesImage k fm s t) (hwf : s.mem.wf = true) :
    t.mem.wf = true := by
  cases h with
  | same h => rwa [h]
  | cell m v hk hfm h => rw [h]; exact busWrite_wf _ v hwf
  | pushed v hk h => rw [h]; exact push_wf v hwf
  | called ret hk h => rw [h]; exact push16_wf ret hwf
  | entered ret v hk h => rw [h]; exact push_wf v (push16_wf ret hwf)

/-! ### The Decimal flag -/

/-- A state with the Decimal flag set to `d`. -/
def State.withD (d : Bool) (s : State) : State := { s with p := { s.p with d := d } }

/-- Reading an operand neither looks at D nor changes it. -/
theorem readSource_withD (src : Source) (d : Bool) (s : State) :
    readSource src (s.withD d) = ((readSource src s).1, (readSource src s).2.withD d) := by
  cases src with
  | imm v => rfl
  | mem m => cases m <;> rfl

/-- No branch condition looks at D (R171 to R178). -/
theorem branchCondition_withD (k : Kind) (d : Bool) (s : State) :
    branchCondition k (s.withD d).p = branchCondition k s.p := by
  cases k <;> rfl

/-- Nor does a read-only instruction, ADC and SBC included (R125). -/
theorem readingMeaning_withD {k : Kind} {f : Source → State → State} (hk : readingMeaning k = some f) (src : Source)
    (d : Bool) (s : State) : f src (s.withD d) = (f src s).withD d := by
  cases k <;> cases hk <;>
    (simp only [adc, sbc, compareWith, logic, loadA, loadX, loadY, readSource_withD]; rfl)

/-- But for PHP and BRK, which push D, the next states from two values of D differ in D alone (R26, R125). -/
theorem Runs.withD {k : Kind} {fm : Form} {g : State → State} (h : Runs k fm g) (hk : k ∉ [Kind.php, .brk]) (d : Bool)
    (s : State) : (g (s.withD d)).withD false = (g s).withD false := by
  cases h with
  | reads hk src => rw [readingMeaning_withD hk]; rfl
  | bit m => simp only [bitTest, readSource_withD]; rfl
  | shifts hk t =>
    cases t with
    | acc => rfl
    | mem m => cases m <;> rfl
  | steps hk m => cases m <;> rfl
  | stores hk m => cases k <;> cases hk <;> cases m <;> rfl
  | branches hk off =>
    have hcond := (hk (s.withD d)).symm.trans ((branchCondition_withD k d s).trans (hk s))
    simp only [branch_eq, Option.some.inj hcond]
    rfl
  | jmp m => cases m <;> rfl
  | jsr w => rfl
  | internal hk => cases k <;> cases hk <;> rfl
  | @pushes _ v hv =>
    cases k <;> cases hv
    · rfl
    · exact absurd (by decide) hk
  | pulls hk => cases k <;> cases hk <;> rfl
  | brk => exact absurd (by decide) hk
  | invalid op =>
    cases hp : s.cfg.illegalPolicy with
    | halt => rw [illegalOpcode_halt op hp, illegalOpcode_halt op (by exact hp)]; rfl
    | skip => rw [illegalOpcode_skip op hp, illegalOpcode_skip op (by exact hp)]; rfl

end Sys2Proof.Machine
end

section
/-! PROOFS. The rules about the whole machine (10_state.md, 20_memory.md section 5, 41_engine_step.md section 4): what each
instruction changes and what it reads, from the family it runs as, and the statements O16 to O20 and O41. -/

namespace Sys2Proof.Machine

/-! ### What interrupt entry leaves in the registers and flags -/

@[simp] theorem enterInterrupt_a (ret : Word) (b : Bool) (vec : Word) (s : State) :
    (enterInterrupt ret b vec s).a = s.a := by rw [enterInterrupt_eq]
@[simp] theorem enterInterrupt_x (ret : Word) (b : Bool) (vec : Word) (s : State) :
    (enterInterrupt ret b vec s).x = s.x := by rw [enterInterrupt_eq]
@[simp] theorem enterInterrupt_y (ret : Word) (b : Bool) (vec : Word) (s : State) :
    (enterInterrupt ret b vec s).y = s.y := by rw [enterInterrupt_eq]
@[simp] theorem enterInterrupt_sp (ret : Word) (b : Bool) (vec : Word) (s : State) :
    (enterInterrupt ret b vec s).sp = s.sp - 1 - 1 - 1 := by rw [enterInterrupt_eq]
@[simp] theorem enterInterrupt_p (ret : Word) (b : Bool) (vec : Word) (s : State) :
    (enterInterrupt ret b vec s).p = { s.p with i := true } := by rw [enterInterrupt_eq]
@[simp] theorem enterInterrupt_cfg (ret : Word) (b : Bool) (vec : Word) (s : State) :
    (enterInterrupt ret b vec s).cfg = s.cfg := by rw [enterInterrupt_eq]

/-! ### Memory, byte by byte -/

/-- Two down at once is one down twice. -/
theorem byte_sub_two (v : Byte) : v - 2 = v - 1 - 1 := (sub_sub v 1 1).symm

/-- A byte changes only at the effective address of a storing kind or at a pushed slot (R40, R49, R53). -/
theorem LeavesImage.byteAt_cases {k : Kind} {fm : Form} {s t : State} (h : LeavesImage k fm s t) {a : Word}
    (ha : t.byteAt a ≠ s.byteAt a) :
    (∃ m, fm = .mem m ∧ a = effectiveAddress m s ∧ k ∈ storingKinds)
      ∨ (k ∈ [Kind.pha, .php] ∧ a = stackAddr s.sp)
      ∨ (k = .jsr ∧ a ∈ [stackAddr s.sp, stackAddr (s.sp - 1)])
      ∨ (k = .brk ∧ a ∈ [stackAddr s.sp, stackAddr (s.sp - 1), stackAddr (s.sp - 1 - 1)]) := by
  cases h with
  | same h => exact absurd (byteAt_congr h a) ha
  | cell m v hk hfm h =>
    rw [byteAt_congr h] at ha
    exact .inl ⟨m, hfm, not_imp_comm.mp byteAt_busWrite_other ha, hk⟩
  | pushed v hk h =>
    rw [byteAt_congr h] at ha
    exact .inr (.inl ⟨hk, not_imp_comm.mp byteAt_push_other ha⟩)
  | called ret hk h =>
    rw [byteAt_congr h] at ha
    refine .inr (.inr (.inl ⟨hk, ?_⟩))
    by_contra hout
    simp only [List.mem_cons, List.not_mem_nil, or_false, not_or] at hout
    obtain ⟨h0, h1⟩ := hout
    exact ha (byteAt_push16_other h0 h1)
  | entered ret v hk h =>
    rw [byteAt_congr h] at ha
    refine .inr (.inr (.inr ⟨hk, ?_⟩))
    by_contra hout
    simp only [List.mem_cons, List.not_mem_nil, or_false, not_or] at hout
    obtain ⟨h0, h1, h2⟩ := hout
    exact ha ((byteAt_push_other (s := push16 ret s) h2).trans (byteAt_push16_other h0 h1))

/-! ### The storing kinds as one write -/

/-- A storing kind stores a register, steps its cell or shifts it. -/
theorem storingKinds_cases {k : Kind} (hk : k ∈ storingKinds) :
    (∃ reg, storedRegister k = some reg) ∨ (∃ f, cellMeaning k = some f) ∨ ∃ f, shiftMeaning k = some f := by
  simp only [storingKinds, List.mem_cons, List.not_mem_nil, or_false] at hk
  obtain rfl | rfl | rfl | rfl | rfl | rfl | rfl | rfl | rfl := hk
  exacts [.inl ⟨_, rfl⟩, .inl ⟨_, rfl⟩, .inl ⟨_, rfl⟩, .inr (.inl ⟨_, rfl⟩), .inr (.inl ⟨_, rfl⟩),
    .inr (.inr ⟨_, rfl⟩), .inr (.inr ⟨_, rfl⟩), .inr (.inr ⟨_, rfl⟩), .inr (.inr ⟨_, rfl⟩)]

/-- A storing kind in memory writes one byte at EA, as its last bus access, and no flag but C, Z and N (R53, R105). -/
theorem exec_of_storingKinds {i : Instr} {mode : MemMode} (hfm : i.form = .mem mode) (hk : i.kind ∈ storingKinds)
    (s : State) :
    ∃ (v : Byte) (p : Flags) (before : List BusEvent),
      exec i s = .next { s with
        mem := (busWrite (effectiveAddress mode s) v s).mem
        p := p
        pc := nextPc i s
        events := before ++ [.write (effectiveAddress mode s) v] }
      ∧ p.i = s.p.i ∧ p.d = s.p.d ∧ p.v = s.p.v := by
  have hview : i.view = (i.kind, .mem mode) := Prod.ext rfl hfm
  obtain ⟨reg, h⟩ | ⟨f, h⟩ | ⟨f, h⟩ := storingKinds_cases hk
  · exact ⟨_, _, _, exec_store h hview, rfl, rfl, rfl⟩
  · exact ⟨_, _, _, exec_stepCell h hview rfl, rfl, rfl, rfl⟩
  · exact ⟨_, _, _, exec_shift_mem h hview rfl, rfl, rfl, rfl⟩

end Sys2Proof.Machine

namespace Sys2Proof.Proofs

open Sys2Proof Sys2Proof.Machine

/-- Settles O16: family by family, the flags a kind writes are those of its flag computation. -/
theorem flagsChangeOnlyByTheirWriters : Obligations.FlagsChangeOnlyByTheirWriters := by
  intro i s t h
  obtain ⟨g, hg, -, rfl⟩ := runs_of_exec h
  generalize i.kind = k at hg ⊢
  generalize i.form = fm at hg
  cases hg with
  | reads hk src =>
    cases k <;> cases hk <;>
      simp [adc_eq, sbc_eq, compareWith_eq, logic_eq, loadA_eq, loadX_eq, loadY_eq, sumFlags, compareFlags, setZN]
  | bit m => simp [bitTest_eq, bitFlags]
  | shifts hk t => cases t <;> cases k <;> cases hk <;> simp [shift_acc_eq, shift_mem_eq, shiftFlags, setZN]
  | steps hk m => cases k <;> cases hk <;> simp [stepCell_eq, setZN]
  | stores hk m => simp [store_eq]
  | branches hk off => simp [branch_eq]
  | jmp m => simp [jump_eq]
  | jsr w => simp [jumpSubroutine_eq]
  | internal hk => cases k <;> cases hk <;> simp [setZN]
  | pushes hk => simp
  | pulls hk => cases k <;> cases hk <;> simp [pullA, returnFromSubroutine, setZN]
  | brk => simp
  | invalid op => rw [illegalOpcode_eq]; simp

/-- Settles O17, the same way for the registers. -/
theorem registersChangeOnlyByTheirWriters : Obligations.RegistersChangeOnlyByTheirWriters := by
  intro i s t h
  obtain ⟨g, hg, -, rfl⟩ := runs_of_exec h
  generalize i.kind = k at hg ⊢
  generalize i.form = fm at hg ⊢
  cases hg with
  | reads hk src =>
    cases k <;> cases hk <;> simp [adc_eq, sbc_eq, compareWith_eq, logic_eq, loadA_eq, loadX_eq, loadY_eq]
  | bit m => simp [bitTest_eq]
  | shifts hk t => cases t <;> cases k <;> cases hk <;> simp [shift_acc_eq, shift_mem_eq, Target.form]
  | steps hk m => simp [stepCell_eq]
  | stores hk m => simp [store_eq]
  | branches hk off => simp [branch_eq]
  | jmp m => simp [jump_eq]
  | jsr w => simp [jumpSubroutine_eq]
  | internal hk => cases k <;> cases hk <;> simp
  | pushes hk => cases k <;> cases hk <;> simp
  | pulls hk => cases k <;> cases hk <;> simp [pullA, pullStatus, returnFromSubroutine, returnFromInterrupt]
  | brk => simp
  | invalid op => rw [illegalOpcode_eq]; simp

/-- Settles O18: the ways an instruction may leave the image, read byte by byte. -/
theorem memoryChangesOnlyWhereStored : Obligations.MemoryChangesOnlyWhereStored := by
  intro i s t a h ha
  obtain ⟨g, hg, -, rfl⟩ := runs_of_exec h
  rw [byte_sub_two]
  exact (hg.leavesImage s).byteAt_cases ha

/-- Settles O19: the frame of every family but the Invalid opcode's is one equation, and no family drops an event. -/
theorem instructionsLeaveLatchesAndHaltMarks : Obligations.InstructionsLeaveLatchesAndHaltMarks := by
  intro i s t h
  obtain ⟨g, hg, -, rfl⟩ := runs_of_exec h
  have hevents := hg.events_append s
  obtain ⟨hk, op, rfl⟩ | heq := hg.frame s
  · have heq := illegalOpcode_eq op s
    exact ⟨by rw [heq], by rw [heq], by rw [heq], by rw [heq], hevents, fun hne => absurd hk hne⟩
  · exact ⟨by rw [heq], by rw [heq], by rw [heq], by rw [heq], hevents,
      fun _ => ⟨by rw [heq], by rw [heq], by rw [heq]⟩⟩

/-- Settles O20, by the lemma that every family but PHP and BRK carries D along. -/
theorem noInstructionButPhpAndBrkReadsDecimal : Obligations.NoInstructionButPhpAndBrkReadsDecimal := by
  intro i s t d hk h
  obtain ⟨g, hg, hexec, rfl⟩ := runs_of_exec h
  exact ⟨g (s.withD d), hexec (s.withD d), hg.withD hk d s⟩

/-- Settles O41: every storing kind is one bus write at EA, and the rules of `busWrite` say which byte it sets. -/
theorem storingFormsFrame : Obligations.StoringFormsFrame := by
  intro i mode s hfm hk
  obtain ⟨v, p, before, hexec, hi, hd, hv⟩ := exec_of_storingKinds hfm hk s
  refine ⟨_, v, hexec, List.getLast?_concat, ?plain, ?intercepted, ?other, rfl, rfl, rfl, rfl, hi, hd, hv⟩
  case plain => exact fun hwf hram => byteAt_busWrite_same hwf hram
  case intercepted => exact fun hio a => byteAt_congr (busWrite_mem_intercepted hio) a
  case other => exact fun a ha => byteAt_busWrite_other ha

end Sys2Proof.Proofs
end

section
/-! PROOFS. The fetch and the step (30_encoding.md section 1, 41_engine_step.md sections 1 and 5): what the fetch reads and
decodes, what a running block's step does, and the statements O10 to O15, O5 and O59. -/

namespace Sys2Proof.Machine

/-! ### The fetch -/

/-- What the entry of an opcode reads has the bytes it was read from. -/
theorem hasBytes_of_lookup {op : Byte} {e : Entry} {bs : List Byte} {i : Instr} (h : lookup op = e) (hr : e.Reads bs i) :
    i.HasBytes op bs := hasBytes_of_reads (h ▸ hr)

/-- The fetch of a one-byte instruction reads the opcode alone (R102). -/
theorem fetch_f1 {s : State} {i : Instr} (h : lookup (busValue s.pc s) = .f1 i) : fetch s = (i, (busRead s.pc s).2) := by
  simp [fetch, h]

/-- The fetch of a two-byte instruction reads one operand byte (R102). -/
theorem fetch_f2 {s : State} {build : Byte → Instr} (h : lookup (busValue s.pc s) = .f2 build) :
    fetch s = (build (busValue (s.pc + 1) (busRead s.pc s).2), (busRead (s.pc + 1) (busRead s.pc s).2).2) := by
  simp [fetch, h]

/-- The fetch of a three-byte instruction reads two operand bytes (R102). -/
theorem fetch_f3 {s : State} {build : Word → Instr} (h : lookup (busValue s.pc s) = .f3 build) :
    fetch s = (build (readPair (s.pc + 1) (s.pc + 2) (busRead s.pc s).2).1,
      (readPair (s.pc + 1) (s.pc + 2) (busRead s.pc s).2).2) := by
  simp [fetch, h]

/-- The reads of a list of addresses, those after the first made in the state the first leaves. -/
theorem busReads_append_snd (a : Word) (as : List Word) (s : State) :
    { (busRead a s).2 with events := (busRead a s).2.events ++ busReads as (busRead a s).2 }
      = { s with events := s.events ++ busReads (a :: as) s } := by
  rw [busReads_cons, busRead_events, List.append_assoc]
  rfl

/-- What a fetch does: the entry of the opcode the bus answers reads the operand bytes the bus answers, and the only change
is the reads of just those bytes (R61, R102). -/
theorem fetch_spec (s : State) :
    ∃ bs, (lookup (busValue s.pc s)).Reads bs (fetch s).1
      ∧ (busReads (fetchAddrs (fetch s).1 s) s).map BusEvent.value = busValue s.pc s :: bs
      ∧ (fetch s).2 = { s with events := s.events ++ busReads (fetchAddrs (fetch s).1 s) s } := by
  cases h : lookup (busValue s.pc s) with
  | f1 i =>
    rw [fetch_f1 h, fetchAddrs_one s (hasBytes_of_lookup h (.f1 i)).length_eq.symm]
    exact ⟨[], .f1 i, rfl, busRead_snd_eq _ _⟩
  | f2 build =>
    rw [fetch_f2 h, fetchAddrs_two s (hasBytes_of_lookup h (.f2 build _)).length_eq.symm]
    exact ⟨_, .f2 build _, rfl, (busRead_snd_eq _ _).trans (busReads_append_snd _ _ _)⟩
  | f3 build =>
    rw [fetch_f3 h, readPair_fst, fetchAddrs_three s (hasBytes_of_lookup h (.f3_wordOf build _ _)).length_eq.symm]
    exact ⟨_, .f3_wordOf build _ _, rfl, (readPair_snd_eq _ _ _).trans (busReads_append_snd _ _ _)⟩

/-- The instruction fetched is well formed: it stands in the table. -/
theorem fetch_wellFormed (s : State) : WellFormed (fetch s).1 = true := by
  obtain ⟨bs, hreads, -, -⟩ := fetch_spec s
  exact (hasBytes_of_reads hreads).1

/-- The fetch changes the event list alone. -/
theorem fetch_snd (s : State) : (fetch s).2 = { s with events := (fetch s).2.events } := by
  obtain ⟨bs, -, -, heq⟩ := fetch_spec s
  rw [heq]

/-! ### Plain bytes at PC -/

/-- Reads outside `IO_MAP` answer the image's bytes. -/
theorem busReads_ram : ∀ (as : List Word) (s : State), (∀ a ∈ as, intercepted a s = false) →
    busReads as s = as.map fun a => .read a (s.byteAt a)
  | [], _, _ => rfl
  | a :: as, s, h => by
    obtain ⟨ha, has⟩ := List.forall_mem_cons.mp h
    rw [busReads_cons, busValue_ram ha, busReads_ram as (busRead a s).2 has]
    rfl

/-- Plain bytes that decode to `i` are fetched as `i`. -/
theorem fetch_fst_of_decode {s : State} {i : Instr} {rest : List Byte}
    (hram : ∀ a ∈ fetchAddrs i s, intercepted a s = false)
    (hdec : decode [s.byteAt s.pc, s.byteAt (s.pc + 1), s.byteAt (s.pc + 2)] = .ok (i, rest)) : (fetch s).1 = i := by
  obtain ⟨op, bs, hbytes, hreads⟩ := decode_eq_ok_iff.mp hdec
  have hlen := (hasBytes_of_reads hreads).length_eq
  obtain ⟨hop, htail⟩ := List.cons.inj hbytes
  generalize he : lookup op = e at hreads
  rw [← hop] at he
  cases hreads with
  | f1 =>
    rw [fetchAddrs_one s hlen.symm, List.forall_mem_singleton] at hram
    rw [fetch_f1 (by rw [busValue_ram hram, he])]
  | f2 build b =>
    simp only [fetchAddrs_two s hlen.symm, List.forall_mem_cons] at hram
    obtain ⟨h0, h1, -⟩ := hram
    obtain ⟨rfl, -⟩ := List.cons.inj htail
    rw [fetch_f2 (by rw [busValue_ram h0, he]), busValue_ram (by exact h1)]
    rfl
  | f3 build w =>
    simp only [fetchAddrs_three s hlen.symm, List.forall_mem_cons] at hram
    obtain ⟨h0, h1, h2, -⟩ := hram
    obtain ⟨hlo, htail⟩ := List.cons.inj htail
    obtain ⟨hhi, -⟩ := List.cons.inj htail
    rw [fetch_f3 (by rw [busValue_ram h0, he]), readPair_ram (by exact h1) (by exact h2), ← wordOf_lo_hi w, ← hlo,
      ← hhi]
    rfl

/-! ### The step of a running block -/

/-- An instruction is fetched, executed and retired (R100). -/
theorem runInstruction_eq {s u : State} (h : exec (fetch s).1 (fetch s).2 = .next u) :
    runInstruction s = .next (retire (fetch s).1 u) := by
  simp only [runInstruction, h]

/-- An instruction always answers a next state. -/
theorem runInstruction_eq_next (s : State) : ∃ t, runInstruction s = .next t := by
  obtain ⟨u, hu⟩ := exec_eq_next (fetch s).1 (fetch s).2
  exact ⟨_, runInstruction_eq hu⟩

/-- A halted block returns its fault again (R113). -/
theorem step_halted {s : State} (h : s.halted = true) : step s = .fault (.illegalOpcode s.pc s.haltOpcode) := by
  rw [step, if_pos h]

/-- A pending interrupt is taken before any fetch (R231). -/
theorem step_interrupt {s : State} (hrun : s.halted = false) (hint : takesInterrupt s = true) :
    step s = .next (interruptSequence (beginEvents s)) := by
  simp [step, hrun, hint]

/-- The return of a documented instruction's count (R110). -/
theorem retire_documented {i : Instr} (h : i.kind ≠ .invalid) (s : State) :
    retire i s = { s with result := some (.ok (cycles (opcode i))) } := by
  unfold retire
  split
  next hk => exact absurd hk h
  next => rfl

/-- An Invalid opcode has set its own result (R240). -/
theorem retire_invalid {i : Instr} (h : i.kind = .invalid) (s : State) : retire i s = s := by
  rw [retire, h]

/-- The addresses of an instruction's bytes are the first of three, however long it is. -/
theorem fetchAddrs_eq_take (i : Instr) (s : State) :
    fetchAddrs i s = [s.pc, s.pc + 1, s.pc + 2].take (1 + formLen i.form) := by
  have hlen : formLen i.form = 0 ∨ formLen i.form = 1 ∨ formLen i.form = 2 := by
    cases i.form with
    | mem m => cases m <;> simp [formLen, memLen]
    | _ => simp [formLen]
  obtain h | h | h := hlen
  · rw [fetchAddrs_one s h, h]; rfl
  · rw [fetchAddrs_two s h, h]; rfl
  · rw [fetchAddrs_three s h, h]; rfl

/-- A running block with nothing pending executes the instruction that the plain bytes at PC decode to, in the state whose
events are the reads of just those bytes (R100). -/
theorem step_of_decode {s u : State} {i : Instr} {rest : List Byte} (hrun : s.halted = false)
    (hint : takesInterrupt s = false) (hram : ∀ a ∈ fetchAddrs i s, intercepted a s = false)
    (hdec : decode [s.byteAt s.pc, s.byteAt (s.pc + 1), s.byteAt (s.pc + 2)] = .ok (i, rest))
    (hu : exec i { s with
      past := s.past ++ s.events
      events := (fetchAddrs i s).map fun a => .read a (s.byteAt a) } = .next u) : step s = .next (retire i u) := by
  have hi : (fetch (beginEvents s)).1 = i := fetch_fst_of_decode hram hdec
  obtain ⟨bs, -, -, hfetch⟩ := fetch_spec (beginEvents s)
  have hexec : exec (fetch (beginEvents s)).1 (fetch (beginEvents s)).2 = .next u := by
    rw [hfetch, hi, busReads_ram (fetchAddrs i (beginEvents s)) (beginEvents s) hram]
    exact hu
  rw [step_eq_runInstruction hrun hint, runInstruction_eq hexec, hi]

/-! ### The cycle counts -/

/-- The base counts of the documented instructions lie between 2 and 7 (R283). -/
theorem cycles_bounds {i : Instr} (h : i.kind ≠ .invalid) : 2 ≤ cycles (opcode i) ∧ cycles (opcode i) ≤ 7 := by
  cases i
  case invalid op => exact absurd rfl h
  all_goals exact ⟨Nat.le_of_ble_eq_true rfl, Nat.le_of_ble_eq_true rfl⟩

/-! ### A word placed at PC -/

/-- A placed word stands at PC, PC + 1 and PC + 2, its low byte first. -/
theorem withFetchWord_bytes {s : State} (hwf : s.mem.wf = true) (nbits w : Nat) :
    [(s.withFetchWord nbits w).byteAt s.pc, (s.withFetchWord nbits w).byteAt (s.pc + 1),
      (s.withFetchWord nbits w).byteAt (s.pc + 2)] = tableBytes nbits w := by
  have h01 : s.pc ≠ s.pc + 1 := by simp
  have h02 : s.pc ≠ s.pc + 2 := by simp
  have h12 : s.pc + 1 ≠ s.pc + 2 := by simp
  simp only [State.withFetchWord, tableBytes, State.byteAt]
  rw [Memory.read_write_other (word_toNat_ne h02), Memory.read_write_other (word_toNat_ne h01),
    Memory.read_write_same hwf, Memory.read_write_other (word_toNat_ne h12),
    Memory.read_write_same (Memory.wf_write _ _ hwf),
    Memory.read_write_same (Memory.wf_write _ _ (Memory.wf_write _ _ hwf))]

/-- No range that holds one of the three addresses is left in the map. -/
theorem withFetchWord_plain {s : State} {a : Word} (ha : a ∈ [s.pc, s.pc + 1, s.pc + 2]) (nbits w : Nat) :
    intercepted a (s.withFetchWord nbits w) = false := by
  simp only [intercepted, State.withFetchWord, tableBytes, List.any_eq_false, List.mem_filter, Bool.not_eq_true',
    List.any_eq_false]
  rintro r ⟨-, hr⟩
  exact hr a ha

/-- No interrupt is taken before the word placed (R231). -/
theorem takesInterrupt_withFetchWord (s : State) (nbits w : Nat) :
    takesInterrupt (s.withFetchWord nbits w) = false := by
  simp [takesInterrupt, State.withFetchWord, tableBytes]

end Sys2Proof.Machine

namespace Sys2Proof.Proofs

open Sys2Proof Sys2Proof.Machine

/-- Settles O11: the table entry of the opcode read decides how many bytes are read, and reads just those. -/
theorem fetchDecodesTheBytesItReads : Obligations.FetchDecodesTheBytesItReads := by
  intro s
  obtain ⟨bs, hreads, hvalues, hstate⟩ := fetch_spec s
  exact ⟨hstate, decode_eq_ok_iff.mpr ⟨_, bs, by rw [hvalues, List.append_nil], hreads⟩, fetch_wellFormed s⟩

/-- Settles O12: the instruction is the one fetched at the start of the step's event list. -/
theorem stepRunsWhatTheBusAnswers : Obligations.StepRunsWhatTheBusAnswers := by
  intro s hrun hint
  obtain ⟨hstate, hdec, -⟩ := fetchDecodesTheBytesItReads (beginEvents s)
  refine ⟨(fetch (beginEvents s)).1, hdec, ?_⟩
  obtain ⟨u, hu⟩ := exec_eq_next (fetch (beginEvents s)).1 (fetch (beginEvents s)).2
  have hexec : exec (fetch (beginEvents s)).1 { s with
      past := s.past ++ s.events
      events := busReads (fetchAddrs (fetch (beginEvents s)).1 s) (beginEvents s) } = .next u := by
    rw [hstate] at hu
    exact hu
  simp only [hexec]
  exact (step_eq_runInstruction hrun hint).trans (runInstruction_eq hu)

/-- Settles O10: plain bytes at PC are fetched as they decode. -/
theorem stepRunsDecodedInstruction : Obligations.StepRunsDecodedInstruction := by
  intro s i rest hrun hint hram hdec
  have hram' : ∀ a ∈ fetchAddrs i s, intercepted a s = false := by
    simpa [fetchAddrs] using hram
  obtain ⟨u, hu⟩ := exec_eq_next i { s with
    past := s.past ++ s.events
    events := (fetchAddrs i s).map fun a => .read a (s.byteAt a) }
  have hstep := step_of_decode hrun hint hram' hdec hu
  rw [fetchAddrs_eq_take, List.map_take] at hu
  simp only [List.map_cons, List.map_nil] at hu
  simp only [hu]
  exact hstep

/-- Settles O13: only the halted branch of the step is a fault; an interrupt sequence and an instruction answer a next
state. -/
theorem stepStopsOnlyWhenHalted : Obligations.StepStopsOnlyWhenHalted := by
  refine fun s => ⟨⟨?runs, ?steps⟩, step_halted⟩
  case runs =>
    rintro ⟨t, ht⟩
    exact (step_cases ht).1
  case steps =>
    intro hrun
    cases hint : takesInterrupt s with
    | true => exact ⟨_, step_interrupt hrun hint⟩
    | false =>
      obtain ⟨t, ht⟩ := runInstruction_eq_next (beginEvents s)
      exact ⟨t, (step_eq_runInstruction hrun hint).trans ht⟩

/-- Settles O14: the result of the two kinds of step, and the table's bounds for the bytes that are not on R64's list. -/
theorem stepReturnsCycleCount : Obligations.StepReturnsCycleCount := by
  refine ⟨fun s t hstep hint => ?interrupt, fun s t hstep hint hk => ?instruction, fun i => cycles_bounds⟩
  case interrupt =>
    obtain ⟨-, ⟨-, rfl⟩ | ⟨hno, -⟩⟩ := step_cases hstep
    · rfl
    · rw [hint] at hno; cases hno
  case instruction =>
    obtain ⟨-, ⟨hyes, -⟩ | ⟨-, u, -, rfl⟩⟩ := step_cases hstep
    · rw [hint] at hyes; cases hyes
    · rw [retire_documented hk]

/-- Settles O15: the word's three bytes are plain memory at PC, and nothing is taken before them. -/
theorem withFetchWordIsRunNext : Obligations.WithFetchWordIsRunNext := by
  intro s nbits w i hwf hword
  have hdec : ∃ rest, decode (tableBytes nbits w) = .ok (i, rest) := by
    unfold decodeTableWord at hword
    split at hword
    next j rest hj => cases hword; exact ⟨rest, hj⟩
    next => cases hword
  obtain ⟨rest, hdec⟩ := hdec
  obtain ⟨u, hu⟩ := exec_eq_next i { s.withFetchWord nbits w with
    past := s.past ++ s.events
    events := (fetchAddrs i s).map fun a => .read a ((s.withFetchWord nbits w).byteAt a) }
  refine ⟨_, u, hu, step_of_decode (rest := rest) rfl (takesInterrupt_withFetchWord s nbits w) ?plain ?bytes hu, rfl,
    rfl, rfl, rfl, rfl, rfl⟩
  case plain =>
    intro a ha
    exact withFetchWord_plain (List.mem_of_mem_take (fetchAddrs_eq_take i s ▸ ha)) nbits w
  case bytes =>
    rw [← hdec, ← withFetchWord_bytes hwf nbits w]
    rfl

/-- Settles O59, policy by policy. -/
theorem invalidOpcodeFollowsPolicy : Obligations.InvalidOpcodeFollowsPolicy := fun op _ =>
  ⟨fun h => congrArg Host.Outcome.next (illegalOpcode_halt op h),
    fun h => congrArg Host.Outcome.next (illegalOpcode_skip op h)⟩

end Sys2Proof.Proofs
end

section
/-! PROOFS. Signed overflow (42_arith_compare.md): the statement O31. -/

namespace Sys2Proof.Machine

/-- The overflow of the sum is a signed sum outside -128 to 127 (R120). -/
theorem addWithCarry_overflow_iff (a m : Byte) (c : Bool) :
    (addWithCarry a m c).overflow = true ↔
      a.toInt + m.toInt + (c.toNat : Int) < -128 ∨ 127 < a.toInt + m.toInt + (c.toNat : Int) := by
  have ha := a.isLt
  have hm := m.isLt
  have hc := c.toNat_le
  rw [addWithCarry_overflow, BitVec.getLsbD_and, BitVec.getLsbD_xor, BitVec.getLsbD_xor, getLsbD_seven_eq_decide,
    getLsbD_seven_eq_decide, getLsbD_seven_eq_decide, addWithCarry_res, BitVec.toNat_ofNat,
    BitVec.toInt_eq_toNat_cond, BitVec.toInt_eq_toNat_cond]
  by_cases hsa : 128 ≤ a.toNat <;> by_cases hsm : 128 ≤ m.toNat <;> simp [hsa, hsm] <;> omega

end Sys2Proof.Machine

namespace Sys2Proof.Proofs

open Sys2Proof Sys2Proof.Machine

/-- Settles O31: V is the overflow of the sum, whose lemma reads it in signed numbers. -/
theorem adcOverflowIsSignedOverflow : Obligations.AdcOverflowIsSignedOverflow := by
  intro i src s hi
  refine ⟨_, exec_of_readingMeaning s rfl hi, ?_⟩
  rw [adc_eq]
  exact addWithCarry_overflow_iff _ _ _

end Sys2Proof.Proofs
end

section
/-! PROOFS. The stack (46_control_flow.md section 2, 47_stack_transfer.md section 1): pushes and pulls as whole next states,
and the statements O44 to O49. -/

namespace Sys2Proof.Machine

/-! ### Pushes and pulls as updates of the state before -/

/-- Two up at once is one up twice. -/
theorem byte_add_two (v : Byte) : v + 2 = v + 1 + 1 := (add_assoc v 1 1).symm

/-- One byte pulled: what the bus answers at the slot one up (R50). -/
theorem pull_eq (s : State) :
    pull s = (busValue (stackAddr (s.sp + 1)) s, { s with
      sp := s.sp + 1
      events := s.events ++ [.read (stackAddr (s.sp + 1)) (busValue (stackAddr (s.sp + 1)) s)] }) := rfl

/-- Two bytes pushed: two writes, high byte first (R52). -/
theorem push16_eq (w : Word) (s : State) :
    push16 w s = { s with
      sp := s.sp - 2
      mem := (push16 w s).mem
      events := s.events ++ [.write (stackAddr s.sp) (hiByte w), .write (stackAddr (s.sp - 1)) (loByte w)] } := by
  rw [byte_sub_two, List.append_cons]
  rfl

/-- Two bytes pulled: two reads, low byte first, the second answered with the first in the event list (R52). -/
theorem pull16_eq (s : State) :
    pull16 s =
      (wordOf (busValue (stackAddr (s.sp + 1)) s)
        (busValue (stackAddr (s.sp + 2)) { s with
          events := s.events ++ [.read (stackAddr (s.sp + 1)) (busValue (stackAddr (s.sp + 1)) s)] }),
      { s with
        sp := s.sp + 2
        events := s.events ++ [.read (stackAddr (s.sp + 1)) (busValue (stackAddr (s.sp + 1)) s),
          .read (stackAddr (s.sp + 2)) (busValue (stackAddr (s.sp + 2)) { s with
            events := s.events ++ [.read (stackAddr (s.sp + 1)) (busValue (stackAddr (s.sp + 1)) s)] })] }) := by
  simp only [pull16, pull_eq, byte_add_two, List.append_assoc, List.cons_append, List.nil_append]
  rfl

/-! ### Pulling what stands in plain slots -/

/-- A pull gives the byte of the slot one up, when that is plain memory. -/
theorem pull_fst_of_slot {sp v : Byte} {t : State} (hsp : t.sp + 1 = sp) (hram : intercepted (stackAddr sp) t = false)
    (hv : t.byteAt (stackAddr sp) = v) : (pull t).1 = v := by
  subst hsp
  rw [pull_fst_ram hram, hv]

/-- Two pulls give back the word that stands below a stack pointer in plain memory. -/
theorem pull16_fst_of_slots {sp : Byte} {w : Word} {t : State} (hsp : t.sp = sp - 1 - 1)
    (hramLo : intercepted (stackAddr (sp - 1)) t = false) (hramHi : intercepted (stackAddr sp) t = false)
    (hlo : t.byteAt (stackAddr (sp - 1)) = loByte w) (hhi : t.byteAt (stackAddr sp) = hiByte w) :
    (pull16 t).1 = w := by
  have h1 : t.sp + 1 = sp - 1 := by rw [hsp, sub_add_cancel]
  have h2 : t.sp + 1 + 1 = sp := by rw [h1, sub_add_cancel]
  rw [pull16_ram (by rwa [h1]) (by rwa [h2]), h1, sub_add_cancel, hlo, hhi, wordOf_lo_hi]

end Sys2Proof.Machine

namespace Sys2Proof.Proofs

open Sys2Proof Sys2Proof.Machine

/-- Settles O44: JSR is `push16` of its last byte's address, then a jump. -/
theorem jsrPushesReturnAddress : Obligations.JsrPushesReturnAddress := by
  intro w s
  refine ⟨(push16 (s.pc + 2) s).mem, ?next, fun a h1 h2 => byteAt_push16_other h1 h2,
    fun hwf h1 h2 => byteAt_push16_slots hwf h1 h2⟩
  rw [show exec (.jsr w) s = .next (jumpSubroutine w s) from rfl, jumpSubroutine_eq, push16_eq]

/-- Settles O45: RTS is `pull16`, and goes to the byte after the word pulled. -/
theorem rtsPullsReturnAddress : Obligations.RtsPullsReturnAddress := by
  intro s
  rw [show exec .rts s = .next (returnFromSubroutine s) from rfl, returnFromSubroutine, pull16_eq]

/-- Settles O46: RTS pulls the word that JSR pushed, the address of the JSR's last byte. -/
theorem rtsUndoesJsr : Obligations.RtsUndoesJsr := by
  intro w s t hwf hram hram' hjsr
  obtain rfl : { push16 (s.pc + 2) s with pc := w } = t := Host.Outcome.next.inj hjsr
  obtain ⟨hhi, hlo⟩ := byteAt_push16_slots (w := s.pc + 2) hwf hram hram'
  have hret : (pull16 { push16 (s.pc + 2) s with pc := w }).1 = s.pc + 2 :=
    pull16_fst_of_slots rfl hram' hram hlo hhi
  refine ⟨_, rfl, ?pc, ?sp, rfl, rfl, rfl, rfl⟩
  case pc =>
    show (pull16 { push16 (s.pc + 2) s with pc := w }).1 + 1 = s.pc + 3
    rw [hret]
    exact add_assoc s.pc 2 1
  case sp =>
    show s.sp - 1 - 1 + 1 + 1 = s.sp
    rw [sub_add_cancel, sub_add_cancel]

/-- Settles O47: both instructions are one `push`. -/
theorem pushesWriteTheStack : Obligations.PushesWriteTheStack := by
  intro i s v hi
  have hexec : exec i s = .next (advance 0 (push v s)) := by
    simp only [List.mem_cons, List.not_mem_nil, or_false, Prod.mk.injEq] at hi
    obtain ⟨rfl, rfl⟩ | ⟨rfl, rfl⟩ := hi <;> rfl
  refine ⟨(push v s).mem, ?next, fun a h => byteAt_push_other h, fun hwf hram => byteAt_push_same hwf hram⟩
  rw [hexec, advance_zero_eq]
  rfl

/-- Settles O48: both instructions are one `pull`. -/
theorem pullsReadTheStack : Obligations.PullsReadTheStack := by
  intro s
  refine ⟨?pla, ?plp⟩
  case pla =>
    rw [← setZN_eq_withZN]
    exact congrArg Host.Outcome.next (advance_zero_eq _)
  case plp => exact congrArg Host.Outcome.next (advance_zero_eq _)

/-- Settles O49: PLA pulls the slot that PHA pushed to. -/
theorem plaUndoesPha : Obligations.PlaUndoesPha := by
  intro s t a' hwf hram hpha
  obtain rfl : advance 0 (push s.a s) = t := Host.Outcome.next.inj hpha
  refine ⟨_, rfl, ?a, sub_add_cancel s.sp 1, ?pc⟩
  case a => exact pull_fst_of_slot (sub_add_cancel s.sp 1) hram (byteAt_push_same hwf hram)
  case pc =>
    show s.pc + 1 + 0 + 1 + 0 = s.pc + 2
    rw [add_zero, add_zero]
    exact add_assoc s.pc 1 1

end Sys2Proof.Proofs
end

section
/-! PROOFS. BRK, RTI and the interrupts (48_system_flags.md section 1, 60_exceptions.md): interrupt entry as a whole next
state, the return from it, and the statements O51 to O53, O55 to O57, O60 and O21. -/

namespace Sys2Proof.Machine

/-! ### Interrupt entry -/

/-- The three write events of an interrupt entry (R233). -/
def entryPushes (ret : Word) (b : Bool) (s : State) : List BusEvent :=
  [.write (stackAddr s.sp) (hiByte ret), .write (stackAddr (s.sp - 1)) (loByte ret),
    .write (stackAddr (s.sp - 2)) (packP b s.p)]

/-- The state an interrupt entry reads its vector in: the return address and the status have been pushed. -/
def afterPushes (ret : Word) (b : Bool) (s : State) : State := push (packP b s.p) (push16 ret s)

/-- Three down at once is one down three times. -/
theorem byte_sub_three (v : Byte) : v - 3 = v - 1 - 1 - 1 := by
  rw [sub_sub, sub_sub]
  rfl

/-- Three up at once is one up and then two. -/
theorem byte_add_three (v : Byte) : v + 3 = v + 1 + 2 := (add_assoc v 1 2).symm

/-- The event list after the pushes. -/
theorem afterPushes_events (ret : Word) (b : Bool) (s : State) :
    (afterPushes ret b s).events = s.events ++ entryPushes ret b s := by
  rw [afterPushes, enterInterrupt_pushes, List.append_assoc, List.append_assoc, entryPushes, byte_sub_two]
  rfl

/-- Interrupt entry as an update of the state before: three pushes, I set, and PC from the vector's two bytes, read after
the pushes (R233). -/
theorem enterInterrupt_eq_update (ret : Word) (b : Bool) (vec : Word) (s : State) :
    enterInterrupt ret b vec s = { s with
      sp := s.sp - 3
      p := { s.p with i := true }
      pc := wordOf (busValue vec (afterPushes ret b s)) (busValue (vec + 1) (busRead vec (afterPushes ret b s)).2)
      mem := (afterPushes ret b s).mem
      events := s.events ++ entryPushes ret b s ++ [.read vec (busValue vec (afterPushes ret b s)),
        .read (vec + 1) (busValue (vec + 1) (busRead vec (afterPushes ret b s)).2)] } := by
  rw [enterInterrupt_eq, enterInterrupt_pc, enterInterrupt_events, ← afterPushes, afterPushes_events, byte_sub_three,
    List.append_assoc _ [_] [_]]
  rfl

/-- The pushes leave every byte outside their slots alone. -/
theorem byteAt_afterPushes_other {ret : Word} {b : Bool} {s : State} {a : Word}
    (h : a ∉ [stackAddr s.sp, stackAddr (s.sp - 1), stackAddr (s.sp - 2)]) :
    (afterPushes ret b s).byteAt a = s.byteAt a := by
  simp only [List.mem_cons, List.not_mem_nil, or_false, not_or, byte_sub_two] at h
  obtain ⟨h0, h1, h2⟩ := h
  exact (byteAt_push_other (s := push16 ret s) h2).trans (byteAt_push16_other h0 h1)

/-- The pushes stand in their slots when these are plain memory. -/
theorem byteAt_afterPushes_slots {ret : Word} {b : Bool} {s : State} (hwf : s.mem.wf = true)
    (hram : ∀ a ∈ [stackAddr s.sp, stackAddr (s.sp - 1), stackAddr (s.sp - 2)], intercepted a s = false) :
    (afterPushes ret b s).byteAt (stackAddr s.sp) = hiByte ret
      ∧ (afterPushes ret b s).byteAt (stackAddr (s.sp - 1)) = loByte ret
      ∧ (afterPushes ret b s).byteAt (stackAddr (s.sp - 2)) = packP b s.p := by
  simp only [List.forall_mem_cons, byte_sub_two] at hram
  obtain ⟨h0, h1, h2, -⟩ := hram
  have hslots := byteAt_enterInterrupt_slots (ret := ret) (b := b) (vec := irqVector) hwf h0 h1 h2
  simp only [byteAt_congr (enterInterrupt_mem ret b irqVector s)] at hslots
  rwa [byte_sub_two]

/-- The history after the pushes (R44). -/
theorem history_afterPushes (ret : Word) (b : Bool) (s : State) :
    history (afterPushes ret b s) = history s ++ entryPushes ret b s := by
  rw [history, afterPushes_events, ← List.append_assoc]
  rfl

/-- The pushes leave every byte outside the stack page alone (R49). -/
theorem byteAt_afterPushes_of_ne_stackAddr {ret : Word} {b : Bool} {s : State} {a : Word} (ha : ∀ q, a ≠ stackAddr q) :
    (afterPushes ret b s).byteAt a = s.byteAt a := byteAt_afterPushes_other (by simp [ha])

/-- What the bus answers outside the stack page after the pushes: the host from a history that holds them, or the byte of
the image before them. -/
theorem busValue_afterPushes {ret : Word} {b : Bool} {s : State} {a : Word} (ha : ∀ q, a ≠ stackAddr q) :
    busValue a (afterPushes ret b s) =
      if intercepted a s then Config.ioRead a (history s ++ entryPushes ret b s) else s.byteAt a := by
  rw [busValue, byteAt_afterPushes_of_ne_stackAddr ha, history_afterPushes]
  rfl

/-- The same for the second byte of the vector, read after the first. -/
theorem busValue_busRead_afterPushes {ret : Word} {b : Bool} {s : State} {vec a : Word} (ha : ∀ q, a ≠ stackAddr q) :
    busValue a (busRead vec (afterPushes ret b s)).2 =
      if intercepted a s
      then Config.ioRead a (history s ++ entryPushes ret b s ++ [.read vec (busValue vec (afterPushes ret b s))])
      else s.byteAt a := by
  rw [busValue_busRead, byteAt_afterPushes_of_ne_stackAddr ha, history_afterPushes]
  rfl

/-- A plain byte outside the stack page reads after the pushes as before them. -/
theorem busValue_afterPushes_ram {ret : Word} {b : Bool} {s : State} {a : Word} (ha : ∀ q, a ≠ stackAddr q)
    (hram : intercepted a s = false) : busValue a (afterPushes ret b s) = s.byteAt a := by
  rw [busValue_afterPushes ha, hram]
  rfl

/-- The second byte of a plain vector, read after the first. -/
theorem busValue_busRead_afterPushes_ram {ret : Word} {b : Bool} {s : State} {vec a : Word} (ha : ∀ q, a ≠ stackAddr q)
    (hram : intercepted a s = false) : busValue a (busRead vec (afterPushes ret b s)).2 = s.byteAt a := by
  rw [busValue_busRead_afterPushes ha, hram]
  rfl

/-- No vector byte lies in the stack page (R48, R49). -/
theorem ne_stackAddr {a : Word} (h : 0x0200 ≤ a.toNat) (q : Byte) : a ≠ stackAddr q := by
  intro he
  have hq := q.isLt
  have := stackAddr_page q
  rw [← he] at this
  omega

/-- The vector that the interrupt sequence goes through: NMI first (R232). -/
def servedVector (s : State) : Word := if s.nmiPending then nmiVector else irqVector

/-- The interrupt sequence is one entry at PC, with the served latch cleared (R232, R233). -/
theorem interruptSequence_eq (s : State) :
    interruptSequence s = { enterInterrupt s.pc false (servedVector s)
      { s with nmiPending := false, irqPending := s.nmiPending && s.irqPending } with result := some (.ok 7) } := by
  obtain ⟨a, x, y, sp, pc, p, nmi, irq, halted, op, mem, events, past, result, cfg⟩ := s
  cases nmi <;> rfl

/-- Neither byte of a served vector lies in the stack page. -/
theorem servedVector_ne_stackAddr (s : State) :
    (∀ q, servedVector s ≠ stackAddr q) ∧ ∀ q, servedVector s + 1 ≠ stackAddr q := by
  unfold servedVector
  split
  · exact ⟨ne_stackAddr (by decide), ne_stackAddr (by decide)⟩
  · exact ⟨ne_stackAddr (by decide), ne_stackAddr (by decide)⟩

/-- The state in which a step that takes an interrupt makes its entry: the event list is empty and the served latch
clear. -/
def entryStart (s : State) : State :=
  { beginEvents s with nmiPending := false, irqPending := s.nmiPending && s.irqPending }

/-- The host has seen the same history at the entry as before the step (R44). -/
theorem history_entryStart (s : State) : history (entryStart s) = history s := history_beginEvents s

/-- The step of a running block that takes an interrupt: the entry at PC, and the result 7 (R231 to R233, R284). -/
theorem step_eq_enterInterrupt {s : State} (hrun : s.halted = false) (hint : takesInterrupt s = true) :
    step s = .next { enterInterrupt s.pc false (servedVector s) (entryStart s) with result := some (.ok 7) } := by
  rw [step_interrupt hrun hint, interruptSequence_eq]
  rfl

/-! ### The return from an entry -/

@[simp] theorem returnFromInterrupt_a (s : State) : (returnFromInterrupt s).a = s.a := rfl
@[simp] theorem returnFromInterrupt_x (s : State) : (returnFromInterrupt s).x = s.x := rfl
@[simp] theorem returnFromInterrupt_y (s : State) : (returnFromInterrupt s).y = s.y := rfl

/-- RTI after an entry whose three slots are plain memory: the address, the flags and the stack pointer from before it
(R211, R238). -/
theorem returnFromInterrupt_of_slots {sp : Byte} {ret : Word} {b : Bool} {p : Flags} {t : State}
    (hsp : t.sp = sp - 1 - 1 - 1) (hram : ∀ q, intercepted (stackAddr q) t = false)
    (hhi : t.byteAt (stackAddr sp) = hiByte ret) (hlo : t.byteAt (stackAddr (sp - 1)) = loByte ret)
    (hst : t.byteAt (stackAddr (sp - 1 - 1)) = packP b p) :
    (returnFromInterrupt t).pc = ret ∧ (returnFromInterrupt t).p = p ∧ (returnFromInterrupt t).sp = sp := by
  have h1 : t.sp + 1 = sp - 1 - 1 := by rw [hsp, sub_add_cancel]
  refine ⟨?pc, ?p, ?sp⟩
  case pc => exact pull16_fst_of_slots (t := { (pull t).2 with p := unpackP (pull t).1 }) h1 (hram _) (hram _) hlo hhi
  case p =>
    show unpackP (pull t).1 = p
    rw [pull_fst_of_slot h1 (hram _) hst, unpackP_packP]
  case sp =>
    show t.sp + 1 + 1 + 1 = sp
    rw [h1, sub_add_cancel, sub_add_cancel]

/-- RTI right after an entry of any kind, from a state that has the entry's memory and stack pointer (R238). -/
theorem returnFromInterrupt_of_enterInterrupt {ret : Word} {b : Bool} {vec : Word} {s t : State}
    (hwf : s.mem.wf = true) (hram : ∀ q, intercepted (stackAddr q) s = false)
    (ht : t.sp = (enterInterrupt ret b vec s).sp) (hmem : t.mem = (enterInterrupt ret b vec s).mem)
    (hcfg : t.cfg = s.cfg) :
    (returnFromInterrupt t).pc = ret ∧ (returnFromInterrupt t).p = s.p ∧ (returnFromInterrupt t).sp = s.sp := by
  obtain ⟨hhi, hlo, hst⟩ :=
    byteAt_enterInterrupt_slots (ret := ret) (b := b) (vec := vec) hwf (hram _) (hram _) (hram _)
  rw [← byteAt_congr hmem] at hhi hlo hst
  exact returnFromInterrupt_of_slots ht (fun q => (intercepted_congr hcfg).trans (hram q)) hhi hlo hst

/-! ### The Decimal flag in the pushed status -/

/-- The packed status differs in bit 3 alone (R24). -/
theorem packP_and_f7 (b d : Bool) (p : Flags) : packP b { p with d := d } &&& 0xF7 = packP b p &&& 0xF7 := by
  apply BitVec.eq_of_getLsbD_eq
  intro k hk
  interval_cases k <;> simp [packP, getElem_flagAt]

/-- Two entries from states that differ in D alone, through a plain vector, agree but for D and the pushed status. -/
theorem enterInterrupt_sameButPushedStatus {ret : Word} {b : Bool} {vec : Word} {s : State} (d : Bool)
    (hlo : intercepted vec s = false) (hhi : intercepted (vec + 1) s = false)
    (hvec : (∀ q, vec ≠ stackAddr q) ∧ ∀ q, vec + 1 ≠ stackAddr q) :
    SameButPushedStatus (stackAddr (s.sp - 2)) b s.p { s.p with d := d } (enterInterrupt ret b vec s)
      (enterInterrupt ret b vec (s.withD d)) := by
  have hlow : busValue vec (afterPushes ret b (s.withD d)) = busValue vec (afterPushes ret b s) :=
    (busValue_afterPushes_ram (s := s.withD d) hvec.1 hlo).trans (busValue_afterPushes_ram hvec.1 hlo).symm
  have hhigh : busValue (vec + 1) (busRead vec (afterPushes ret b (s.withD d))).2
      = busValue (vec + 1) (busRead vec (afterPushes ret b s)).2 :=
    (busValue_busRead_afterPushes_ram (s := s.withD d) hvec.2 hhi).trans
      (busValue_busRead_afterPushes_ram hvec.2 hhi).symm
  refine ⟨?rest, ?bytes, ?events⟩
  case rest =>
    rw [enterInterrupt_eq_update, enterInterrupt_eq_update, hlow, hhigh]
    rfl
  case bytes =>
    intro a ha
    rw [byte_sub_two] at ha
    rw [byteAt_congr (enterInterrupt_mem ret b vec (s.withD d)), byteAt_congr (enterInterrupt_mem ret b vec s)]
    exact (byteAt_push_other (s := push16 ret (s.withD d)) ha).trans (byteAt_push_other (s := push16 ret s) ha).symm
  case events =>
    rw [enterInterrupt_eq_update, enterInterrupt_eq_update, hlow, hhigh]
    refine ⟨s.events ++ [.write (stackAddr s.sp) (hiByte ret), .write (stackAddr (s.sp - 1)) (loByte ret)],
      [.read vec (busValue vec (afterPushes ret b s)),
        .read (vec + 1) (busValue (vec + 1) (busRead vec (afterPushes ret b s)).2)], ?_, ?_⟩ <;>
      simp [entryPushes, State.withD]

/-! ### A step that fetches CLI -/

/-- The step that fetches CLI clears I and goes to the next byte (R214). -/
theorem step_of_cli {s : State} (hrun : s.halted = false) (hint : takesInterrupt s = false)
    (hop : busValue s.pc (beginEvents s) = 0x58) :
    ∃ t, step s = .next t ∧ t.pc = s.pc + 1 ∧ t.p = { s.p with i := false } ∧ t.sp = s.sp ∧ t.halted = false
      ∧ t.nmiPending = s.nmiPending ∧ t.irqPending = s.irqPending := by
  have hlookup : lookup (busValue s.pc (beginEvents s)) = .f1 .cli := by rw [hop]; rfl
  have hfetch : fetch (beginEvents s) = (.cli, (busRead s.pc (beginEvents s)).2) := fetch_f1 hlookup
  have hexec : exec (fetch (beginEvents s)).1 (fetch (beginEvents s)).2 = .next { (busRead s.pc (beginEvents s)).2 with
      p := { s.p with i := false }
      pc := s.pc + 1 } := by
    rw [hfetch]
    exact congrArg Host.Outcome.next (advance_zero_eq _)
  have hstep := (step_eq_runInstruction hrun hint).trans (runInstruction_eq hexec)
  rw [hfetch] at hstep
  exact ⟨_, hstep, rfl, rfl, rfl, hrun, rfl, rfl⟩

end Sys2Proof.Machine

namespace Sys2Proof.Proofs

open Sys2Proof Sys2Proof.Machine

/-- Settles O51: BRK is an interrupt entry at PC + 2 through the IRQ vector. -/
theorem brkEntersThroughIrqVector : Obligations.BrkEntersThroughIrqVector := by
  intro s
  have hlow : ∀ q, irqVector ≠ stackAddr q := ne_stackAddr (by decide)
  have hhigh : ∀ q, irqVector + 1 ≠ stackAddr q := ne_stackAddr (by decide)
  exact ⟨(afterPushes (s.pc + 2) true s).mem, _, _, congrArg Host.Outcome.next (enterInterrupt_eq_update _ _ _ _),
    busValue_afterPushes hlow, busValue_busRead_afterPushes hhigh, fun a ha => byteAt_afterPushes_other ha,
    fun hwf hram => byteAt_afterPushes_slots hwf hram⟩

/-- Settles O52: RTI is a `pull` of the status and a `pull16` of PC. -/
theorem rtiRestoresStatusAndPc : Obligations.RtiRestoresStatusAndPc := by
  intro s
  rw [show exec .rti s = .next (returnFromInterrupt s) from rfl, returnFromInterrupt]
  simp only [pull_eq, pull16_eq, byte_add_three, byte_add_two, List.append_assoc, List.cons_append, List.nil_append]
  rfl

/-- Settles O53: both entries are one operation, and RTI undoes it. -/
theorem rtiUndoesInterruptEntry : Obligations.RtiUndoesInterruptEntry := by
  intro s t hwf hram
  refine ⟨fun hbrk => ?brk, fun hrun hint hstep => ?interrupt⟩
  case brk =>
    obtain rfl : enterInterrupt (s.pc + 2) true irqVector s = t := Host.Outcome.next.inj hbrk
    obtain ⟨hpc, hp, hsp⟩ := returnFromInterrupt_of_enterInterrupt (ret := s.pc + 2) (b := true) (vec := irqVector)
      (t := enterInterrupt (s.pc + 2) true irqVector s) hwf hram rfl rfl (enterInterrupt_cfg _ _ _ _)
    exact ⟨_, rfl, hpc, hp, hsp, by simp, by simp, by simp⟩
  case interrupt =>
    rw [step_eq_enterInterrupt hrun hint] at hstep
    obtain rfl := Host.Outcome.next.inj hstep
    obtain ⟨hpc, hp, hsp⟩ := returnFromInterrupt_of_enterInterrupt (ret := s.pc) (b := false) (vec := servedVector s)
      (s := entryStart s) (t := { enterInterrupt s.pc false (servedVector s) (entryStart s) with
        result := some (.ok 7) }) hwf hram rfl rfl
      (enterInterrupt_cfg s.pc false (servedVector s) (entryStart s))
    exact ⟨_, rfl, hpc, hp, hsp, by simp [entryStart], by simp [entryStart], by simp [entryStart]⟩

/-- Settles O55: the step is one entry at PC, from a state with an empty event list and the served latch clear. -/
theorem interruptEntry : Obligations.InterruptEntry := by
  intro s hrun hpending
  have hint : takesInterrupt s = true := by
    simpa [takesInterrupt] using hpending
  obtain ⟨hlow, hhigh⟩ := servedVector_ne_stackAddr s
  have hlo := busValue_afterPushes (ret := s.pc) (b := false) (s := entryStart s) hlow
  have hhi := busValue_busRead_afterPushes (ret := s.pc) (b := false) (s := entryStart s) (vec := servedVector s) hhigh
  rw [history_entryStart] at hlo hhi
  refine ⟨(afterPushes s.pc false (entryStart s)).mem, _, _, ?step, hlo, hhi,
    fun a ha => byteAt_afterPushes_other (s := entryStart s) ha,
    fun hwf hram => byteAt_afterPushes_slots (s := entryStart s) hwf hram⟩
  rw [step_eq_enterInterrupt hrun hint, enterInterrupt_eq_update]
  rfl

/-- Settles O56: I masks the IRQ, and the instruction run leaves the latch alone. -/
theorem maskedIrqStaysPending : Obligations.MaskedIrqStaysPending := by
  intro s hrun hnmi hirq hi
  have hint : takesInterrupt s = false := by simp [takesInterrupt, hnmi, hi]
  obtain ⟨u, hu⟩ := exec_eq_next (fetch (beginEvents s)).1 (fetch (beginEvents s)).2
  have hnext := runInstruction_eq hu
  obtain ⟨-, hlatch, -⟩ := instructionsLeaveLatchesAndHaltMarks _ _ _ hu
  refine ⟨_, (step_eq_runInstruction hrun hint).trans hnext, hnext, ?_⟩
  rw [retire_eq, hlatch, fetch_snd]
  exact hirq

/-- Settles O57: CLI clears I, so that the next step finds the IRQ unmasked and enters at the address after CLI. -/
theorem irqTakenRightAfterCli : Obligations.IrqTakenRightAfterCli := by
  intro s hrun hnmi hirq hi hop
  have hint : takesInterrupt s = false := by simp [takesInterrupt, hnmi, hi]
  obtain ⟨t, hfirst, hpc, hp, hsp, hrun', hnmi', hirq'⟩ := step_of_cli hrun hint hop
  obtain ⟨mem', lo, high, hsecond, -⟩ := interruptEntry t hrun' (.inr ⟨hirq'.trans hirq, by rw [hp]⟩)
  refine ⟨t, _, hfirst, hpc, by rw [hp], hirq'.trans hirq, hsecond, ?latch, rfl, ?pushes⟩
  case latch => simp [hnmi', hnmi]
  case pushes => rw [← hpc, ← hsp]; rfl

/-- Settles O60: the Invalid byte is one read, and the halted block answers its fault whatever is pending. -/
theorem invalidFetchHaltsUntilReset : Obligations.InvalidFetchHaltsUntilReset := by
  rintro s op hrun hint rfl hop hpolicy
  have hfetch : fetch (beginEvents s)
      = (.invalid (busValue s.pc (beginEvents s)), (busRead s.pc (beginEvents s)).2) :=
    fetch_f1 (lookup_invalid hop)
  have hexec : exec (fetch (beginEvents s)).1 (fetch (beginEvents s)).2
      = .next (illegalOpcode (busValue s.pc (beginEvents s)) (busRead s.pc (beginEvents s)).2) := by
    rw [hfetch]
    rfl
  rw [illegalOpcode_halt _ (by exact hpolicy)] at hexec
  have hstep := (step_eq_runInstruction hrun hint).trans (runInstruction_eq hexec)
  rw [hfetch] at hstep
  exact ⟨_, hstep, rfl, step_halted rfl, step_halted rfl, rfl⟩

/-- Settles O21: the entries and PHP push the status once, and nothing else of them looks at D. -/
theorem decimalFlagReachesThePushedStatusAlone : Obligations.DecimalFlagReachesThePushedStatusAlone := by
  intro s d
  refine ⟨fun b => packP_and_f7 b d s.p, ?php, fun hlo hhi => ?brk, fun hrun hint hlo hhi => ?interrupt⟩
  case php =>
    refine ⟨_, _, rfl, rfl, rfl, fun a ha => ?_, s.events, [], ?_, ?_⟩
    · exact (byteAt_push_other (s := s.withD d) ha).trans (byteAt_push_other (s := s) ha).symm
    · exact (List.append_nil _).symm
    · exact (List.append_nil _).symm
  case brk =>
    exact ⟨_, _, rfl, rfl,
      enterInterrupt_sameButPushedStatus d hlo hhi ⟨ne_stackAddr (by decide), ne_stackAddr (by decide)⟩⟩
  case interrupt =>
    obtain ⟨heq, hbytes, hevents⟩ :=
      enterInterrupt_sameButPushedStatus (s := entryStart s) (ret := s.pc) (b := false) d hlo hhi
        (servedVector_ne_stackAddr s)
    exact ⟨_, _, step_eq_enterInterrupt hrun hint, step_eq_enterInterrupt (s := s.withD d) hrun hint,
      congrArg (fun t : State => { t with result := some (.ok 7) }) heq, hbytes, hevents⟩

end Sys2Proof.Proofs
end

section
/-! PROOFS. The invariant and `Reset()` (10_state.md section 3, 70_reset_and_hazards.md section 1): the statements O5, O1,
O3, O4 and O58. -/

namespace Sys2Proof.Machine

/-! ### The invariant -/

/-- A running block with a canonical image is in a good state: it has no halt to explain. -/
theorem inv_of_running {s : State} (hwf : s.mem.wf = true) (hrun : s.halted = false) : s.Inv :=
  ⟨hwf, fun h => by rw [hrun] at h; cases h⟩

/-- An interrupt sequence keeps the canonical form. -/
theorem interruptSequence_wf {s : State} (hwf : s.mem.wf = true) : (interruptSequence s).mem.wf = true := by
  rw [interruptSequence_eq]
  exact enterInterrupt_wf s.pc false (servedVector s)
    (s := { s with nmiPending := false, irqPending := s.nmiPending && s.irqPending }) hwf

/-- No interrupt sequence halts the block. -/
theorem interruptSequence_halted (s : State) : (interruptSequence s).halted = s.halted := by
  rw [interruptSequence_eq, enterInterrupt_eq]

/-- What an Invalid opcode leaves in a running block is explained: it is halted under Halt alone, by that opcode (R240). -/
theorem illegalOpcode_haltExplained {s : State} {op : Byte} (hrun : s.halted = false)
    (hop : invalidOpcodes.contains op = true) : (illegalOpcode op s).HaltExplained := by
  cases hp : s.cfg.illegalPolicy with
  | halt => rw [illegalOpcode_halt op hp]; exact fun _ => ⟨hp, hop, rfl⟩
  | skip =>
    rw [illegalOpcode_skip op hp]
    intro h
    rw [show s.halted = true from h] at hrun
    cases hrun

/-- The return of a count leaves the halt mark and the image alone. -/
theorem retire_halted (i : Instr) (s : State) : (retire i s).halted = s.halted := by rw [retire_eq]

theorem retire_mem (i : Instr) (s : State) : (retire i s).mem = s.mem := by rw [retire_eq]

/-- One well-formed instruction leads from a running block with a canonical image to a good state. -/
theorem inv_retire_of_exec {i : Instr} {s u : State} (hwf : s.mem.wf = true) (hrun : s.halted = false)
    (hi : WellFormed i = true) (hu : exec i s = .next u) : (retire i u).Inv := by
  obtain ⟨g, hg, -, hug⟩ := runs_of_exec hu
  have hmem : (retire i u).mem.wf = true := by
    rw [retire_mem, hug]
    exact (hg.leavesImage s).wf hwf
  by_cases hk : i.kind = .invalid
  · refine ⟨hmem, ?_⟩
    rw [retire_invalid hk]
    rw [eq_invalid_of_kind hk] at hi hu
    cases hu
    exact illegalOpcode_haltExplained hrun hi
  · obtain ⟨hinv, -⟩ | heq := hg.frame s
    · exact absurd hinv hk
    · exact inv_of_running hmem (by rw [retire_halted, hug, heq, hrun])

end Sys2Proof.Machine

namespace Sys2Proof.Proofs

open Sys2Proof Sys2Proof.Machine

/-- Settles O5: a step that goes on starts in a running block, and takes an interrupt, which leaves it running, or runs one
well-formed instruction. -/
theorem stepKeepsInvariant : Obligations.StepKeepsInvariant := by
  rintro s t ⟨hwf, -⟩ hstep
  obtain ⟨hrun, ⟨-, rfl⟩ | ⟨-, u, hu, rfl⟩⟩ := step_cases hstep
  · exact inv_of_running (interruptSequence_wf hwf) ((interruptSequence_halted _).trans hrun)
  · have hmem : (fetch (beginEvents s)).2.mem.wf = true := by rw [fetch_snd]; exact hwf
    have hrun' : (fetch (beginEvents s)).2.halted = false := by rw [fetch_snd]; exact hrun
    exact inv_retire_of_exec hmem hrun' (fetch_wellFormed _) hu

/-- Settles O1, field by field. -/
theorem resetSetsRegistersAndLatches : Obligations.ResetSetsRegistersAndLatches := fun _ =>
  have hstatus : packP true ⟨false, false, true, false, false, false⟩ = 0x34 := by decide
  ⟨rfl, rfl, rfl, rfl, hstatus, rfl, rfl, rfl, rfl, rfl⟩

/-- Settles O3: with nothing intercepted, both bytes of the vector are read from the blank image. -/
theorem resetStateIsResetOfBlankImage : Obligations.ResetStateIsResetOfBlankImage := by
  rintro ⟨a, x, y, sp, pc, p, nmi, irq, halted, haltOpcode, mem, events, past, result, cfg⟩ rfl rfl rfl rfl
  have hbus : ∀ (a : Word) (t : State), t.mem = [] → t.cfg = Config.default → busValue a t = 0 := by
    intro a t hmem hcfg
    rw [busValue_ram (by rw [intercepted, hcfg]; rfl), State.byteAt, hmem]
    rfl
  simp only [hostReset, read16, readPair, busRead, beginEvents, hbus]
  rfl

/-- Settles O4: the block runs after `Reset()`, which leaves the image alone. -/
theorem resetEstablishesInvariant : Obligations.ResetEstablishesInvariant :=
  ⟨inv_of_running rfl rfl, fun s hwf => inv_of_running (hostReset_mem s ▸ hwf) (hostReset_halted s)⟩

/-- Settles O58: a latch is one field, and `Reset()` clears both. -/
theorem raisingALineIsALatch : Obligations.RaisingALineIsALatch := fun _ => ⟨rfl, rfl, rfl, rfl, rfl, rfl⟩

end Sys2Proof.Proofs
end
